-- ==== Sys2Proof/Word.lean ====
section
/-! DEFINITION. The words of the FS-432: 16-bit image words, bytes, 24-bit stamps, 32-bit sets of
districts, and tables of a fixed number of like records. -/

namespace Sys2Proof

/-- An image word (spec 00, Conventions: "A word is 16 bits"). -/
abbrev Word := BitVec 16

/-- A byte of a link frame, or one byte lane of a word. -/
abbrev Byte := BitVec 8

/-- A 24-bit microsecond time of the wrapping time base (R106). -/
abbrev Stamp := BitVec 24

/-- A word address of the two faces (R123). -/
abbrev WordAddr := BitVec 19

/-- A set of districts: bit d is district d (R169, set fields). -/
abbrev DistrictSet := BitVec 32

/-- A district number, 0 to 31. -/
abbrev DistrictId := Fin 32

/-- A feed number, 0 to 7. -/
abbrev FeedId := Fin 8

/-- A node by position: `k` stands for link address k + 1. -/
abbrev NodeId := Fin 8

/-- A channel of a node, 0 to 3. -/
abbrev ChannelId := Fin 4

/-- An incident slot, 0 to 3. -/
abbrev SlotId := Fin 4

/-- A ramp engine, 0 to 3. -/
abbrev EngineId := Fin 4

/-- Every index of a table, in rising order. -/
abbrev indices (n : Nat) : List (Fin n) := List.finRange n

/-- The table whose entry i is `f i`. -/
def tabulate {α : Type} (n : Nat) (f : Fin n → α) : Vector α n :=
  ⟨⟨(indices n).map f⟩, by simp⟩

/-- Entry i of a table replaced. -/
def put {α : Type} {n : Nat} (t : Vector α n) (i : Fin n) (x : α) : Vector α n :=
  t.set i.val x i.isLt

end Sys2Proof
end

