-- ==== Sys2Proof/Syntax.lean ====
section
/-! DEFINITION. The commands of the block: one constructor for each row of spec/opcode_table.json,
with the operands the row's text names. -/

namespace Sys2Proof

/-- The byte lanes an access enables (R123): lower carries bits 7:0, upper bits 15:8. -/
inductive Lanes where
  | lower
  | upper
  | both
  deriving DecidableEq, Repr

/-- The intent words of the control block (R171). -/
inductive ControlReg where
  | gatheringWindow
  | provingWindow
  | quietInterval
  | holdoffBase
  | attemptLimit
  | drainPeriod
  | faultMask
  | ringBaseLow
  | ringBaseHigh
  | ringCapacity
  | consumerIndex
  | lockSetLow
  | lockSetHigh
  deriving DecidableEq, Repr

/-- The four setting words of a feed block (R172). -/
inductive FeedReg where
  | ceiling
  | concurrency
  | sagThreshold
  | settleTime
  deriving DecidableEq, Repr

/-- An intent-word position of the image (R125, R130). -/
inductive IntentPos where
  | control (r : ControlReg)
  | feed (k : FeedId) (r : FeedReg)
  | adjacency (j : Fin 48)
  | district (d : DistrictId) (w : Fin 5)
  deriving DecidableEq, Repr

/-- The control settings that have no row of their own (R141). -/
inductive Setting where
  | gatheringWindow
  | provingWindow
  | quietInterval
  | holdoffBase
  | drainPeriod
  deriving DecidableEq, Repr

/-- The ring base words and the ring capacity (R142). -/
inductive RingReg where
  | baseLow
  | baseHigh
  | capacity
  deriving DecidableEq, Repr

/-- The two lock set words: districts 0 to 15, districts 16 to 31 (R143). -/
inductive LockHalf where
  | low
  | high
  deriving DecidableEq, Repr

/-- One read, or one write with its data (R123). -/
inductive AccessOp where
  | read
  | write (data : Word)
  deriving DecidableEq, Repr

/-- A host access: one read or one write at one word address, with its lanes (R123). -/
structure Request where
  addr : WordAddr
  op : AccessOp
  lanes : Lanes
  deriving DecidableEq, Repr

/-- What a full reset samples at its end: the straps (R124), the booster-OK lines, bit k for feed k and
1 for high (R103), and the HOLD level (R158). -/
structure Pins where
  straps : Fin 8
  boosters : Byte
  hold : Bool
  deriving DecidableEq, Repr

/-- 23 bytes received after a POLL, in order, and whether every byte had a valid stop bit (R113). -/
structure Report where
  bytes : Vector Byte 23
  stopBitsValid : Bool
  deriving DecidableEq, Repr

/-- The commands. Each constructor is the row of the same name of spec/opcode_table.json. -/
inductive Instr where
  | fullReset (pins : Pins)
  | layoutReset
  | clearAllLockouts
  | lockFreeze
  | unknownCommandCode (code : Word)
  | clearLockout (d : DistrictId)
  | clearFlags (d : DistrictId)
  | hostIntentWrite (d : DistrictId) (v : Word) (l : Lanes)
  /-- Intent word `w + 1` of district d. -/
  | districtWordWrite (d : DistrictId) (w : Fin 4) (v : Word) (l : Lanes)
  | adjacencyWrite (j : Fin 48) (v : Word) (l : Lanes)
  | feedSettingWrite (k : FeedId) (r : FeedReg) (v : Word) (l : Lanes)
  | controlSettingWrite (r : Setting) (v : Word) (l : Lanes)
  | attemptLimitWrite (v : Word) (l : Lanes)
  | faultMaskWrite (v : Word) (l : Lanes)
  | ringSettingWrite (r : RingReg) (v : Word) (l : Lanes)
  | consumerIndexWrite (v : Word) (l : Lanes)
  | lockSetWrite (h : LockHalf) (v : Word) (l : Lanes)
  | flagsRead (d : DistrictId) (l : Lanes)
  | lastResetCauseRead (l : Lanes)
  | hostIntentRead (p : IntentPos) (l : Lanes)
  | hostAccessBegin (r : Request)
  | hostAccessEnd
  | accessDrop
  | correctionWordStart
  | correctionWordComplete
  | ringWordStart
  | ringWordComplete
  | holdAssert
  | holdRelease
  | boosterLineLow (k : FeedId)
  | boosterLineHigh (k : FeedId)
  | settleExpiry (k : FeedId)
  | drainExpiry
  | holdoffExpiry (d : DistrictId)
  | provingExpiry (d : DistrictId)
  | quietExpiry (d : DistrictId)
  | gatheringTimerExpiry (n : SlotId)
  | stepTimerExpiry (e : EngineId)
  | poll
  | report (r : Report)
  | missTimeout
  | missGap
  | resetHeld
  deriving DecidableEq, Repr

end Sys2Proof
end

