-- ==== Sys2Proof/Decode.lean ====
section
/-! DEFINITION. Decoding. No row of spec/opcode_table.json gives bits (98_reader.md: no row with
fixed bits, none with fields), so no word spells a command (log 22). -/

namespace Sys2Proof

/-- The command that a word of `nbits` bits spells by the table's bits: none, for the table gives no
row any bits. -/
def decodeTableWord (_nbits _w : Nat) : Option Instr :=
  none

end Sys2Proof
end

