-- ==== Sys2Proof/Config.lean ====
section
/-! DEFINITION. What the spec leaves open: free values, with no body, so that no proof can see what
they are. A claim that holds here holds whatever they are. -/

namespace Sys2Proof

/-- Free value (log 5): the order in which the claims of one event are taken where the spec gives no
order ("The three claims may be taken in any order", chapter 12.5; R66; R162). The first argument is
the state's counter `choices`, the second how many claims are still to be taken less one; the answer,
modulo their number, is the position of the claim taken next. -/
opaque Config.pick : Nat → Nat → Nat

/-- Free value (log 10): what a memory word holds after the reset cut off the own word that was being
written there (R134: "may leave its memory position with an undefined value"). -/
opaque Config.cutOffWord : Nat → Word

end Sys2Proof
end

