-- ==== Sys2Proof/Machine/State.lean ====
section
/-! DEFINITION. The state of the FS-432 as plain data, the reasons a step can stop, and the state after
a full reset. One field for each piece of state the spec names (INVENTORY.md, State). -/

namespace Sys2Proof.Machine

open Sys2Proof

/-- The fourteen district states (R9). -/
inductive DistrictState where
  | off
  | queued
  | ramping
  | proving
  | live
  | reversing
  | tripped
  | holdoff
  | gated
  | stopped
  | lockout
  | locked
  | unreachable
  | checkHold
  deriving DecidableEq, Repr

/-- A district's polarity (R63). -/
inductive Polarity where
  | a
  | b
  deriving DecidableEq, Repr

/-- The cause of a cut (R28); NONE of R4 is `none` of an Option. -/
inductive Cause where
  | overcurrent
  | overload
  | nodeHeat
  | undervoltage
  | stall
  deriving DecidableEq, Repr

/-- The recovery role (R4, R28). -/
inductive Role where
  | none
  | follower
  | suspect
  | flip
  deriving DecidableEq, Repr

/-- The host's wish for a district (R1). -/
inductive Intent where
  | off
  | on
  | onManual
  deriving DecidableEq, Repr

/-- The seven latched event flags (R8). -/
structure Flags where
  tripped : Bool
  refused : Bool
  lockoutEntered : Bool
  rampStalled : Bool
  flipped : Bool
  restored : Bool
  checkError : Bool
  deriving DecidableEq, Repr

/-- Every flag clear. -/
def Flags.clear : Flags :=
  { tripped := false, refused := false, lockoutEntered := false, rampStalled := false, flipped := false,
    restored := false, checkError := false }

/-- A timer: stopped, or running with the time left in microseconds (log 2). -/
abbrev Timer := Option Nat

/-- One district context (R1, R4, R8, R9, R21). -/
structure District where
  /-- The copy of intent words 0 to 4 (R1). -/
  words : Vector Word 5
  state : DistrictState
  polarity : Polarity
  attempts : Nat
  /-- The last reported current, in units of 40 mA (R5). -/
  current : Byte
  /-- The commanded level, 0 to 16 sixteenths (R5). -/
  level : Nat
  lastCause : Option Cause
  lastIncident : Option Byte
  incidentSlot : Option SlotId
  role : Role
  /-- The recovery mark (R7). -/
  mark : Bool
  /-- The context-invalid flag (R22). -/
  invalid : Bool
  /-- The reload set, bit k for intent word k (R23). -/
  reload : BitVec 5
  flags : Flags
  /-- Whether the copy agrees with the check code kept over it (R21, log 7). -/
  codeAgrees : Bool
  /-- The last POLL formed for this district carried its own command (R110, case 4), and since that POLL
  no engine has commanded it a step and it has not entered REVERSING (R77, R119, R58; log 15). -/
  polled : Bool
  holdoffTimer : Timer
  provingTimer : Timer
  quietTimer : Timer
  deriving DecidableEq, Repr

/-- The four slot states (R29). -/
inductive SlotState where
  | free
  | gathering
  | recovering
  | closing
  deriving DecidableEq, Repr

/-- The six incident classes (R41). -/
inductive IncidentClass where
  | short
  | bridge
  | reverse
  | multi
  | feedSag
  | undervolt
  deriving DecidableEq, Repr

/-- One member entry of an incident (R28). -/
structure Member where
  district : DistrictId
  cause : Cause
  stamp : Stamp
  saturated : Bool
  wasProving : Bool
  withdrawn : Bool
  role : Role
  deriving DecidableEq, Repr

/-- One incident slot (R28). -/
structure Slot where
  state : SlotState
  id : Byte
  anchor : Stamp
  openTime : Stamp
  /-- Milliseconds from opening, 0 to 65535 (R34). -/
  elapsed : Nat
  /-- Microseconds since the last of those milliseconds (log 19). -/
  elapsedMicros : Nat
  members : List Member
  origin : Option DistrictId
  cls : Option IncidentClass
  suspects : List DistrictId
  timer : Timer
  roundBegun : Bool
  roundSeen : Bool
  restored : DistrictSet
  lockouts : DistrictSet
  anySaturated : Bool
  deriving DecidableEq, Repr

/-- A FREE slot: no members, empty lists and sets, flags clear (R30, R50, R52). The fields that "have no
meaning until it opens" (R28) are 0 or none (log 12). -/
def Slot.blank : Slot :=
  { state := .free, id := 0, anchor := 0, openTime := 0, elapsed := 0, elapsedMicros := 0, members := [],
    origin := .none, cls := .none, suspects := [], timer := .none, roundBegun := false, roundSeen := false,
    restored := 0, lockouts := 0, anySaturated := false }

/-- The three feed states (R90). -/
inductive FeedState where
  | up
  | down
  | settling
  deriving DecidableEq, Repr

/-- One feed record: the four setting words and the live fields (R90). -/
structure Feed where
  ceiling : Word
  concurrency : Word
  sagThreshold : Word
  settleTime : Word
  state : FeedState
  stress : Nat
  engaged : Nat
  /-- The energise history, oldest first (R100). -/
  history : List DistrictId
  settleTimer : Timer
  /-- MODEL's own bit: a sag notice has started the running settle timer again in this microsecond, so that an
  expiry it would have had there does not happen (R95; log 2). -/
  settleRestarted : Bool
  deriving DecidableEq, Repr

/-- One ramp engine (R74). It is BUSY exactly while it holds a district. -/
structure Engine where
  district : Option DistrictId
  feed : FeedId
  steps : Nat
  interval : Nat
  ceiling : Nat
  index : Nat
  stalls : Nat
  timer : Timer
  /-- The fresh reading for the step held, if one exists (R77, log 16). -/
  reading : Option Byte
  deriving DecidableEq, Repr

/-- An IDLE engine after reset (R74); what the spec leaves open there is 0 or none (log 12). -/
def Engine.idle : Engine :=
  { district := .none, feed := 0, steps := 0, interval := 0, ceiling := 0, index := 0, stalls := 0,
    timer := .none, reading := .none }

/-- The three node states (R107). -/
inductive NodeState where
  | absent
  | present
  | lost
  deriving DecidableEq, Repr

/-- A channel's output state (R112, R174); code 3 is taken as CUT (R175). -/
inductive Output where
  | off
  | on
  | cut
  deriving DecidableEq, Repr

/-- One channel entry of the node table (R107). -/
structure ChannelEntry where
  output : Output
  newCut : Bool
  deriving DecidableEq, Repr

/-- One entry of the node table (R107). -/
structure Node where
  state : NodeState
  misses : Nat
  restarted : Bool
  channels : Vector ChannelEntry 4
  deriving DecidableEq, Repr

/-- The channel modes (R110). -/
inductive Mode where
  | holdOff
  | step
  | full
  deriving DecidableEq, Repr

/-- One channel command (R110). -/
structure ChannelCommand where
  mode : Mode
  duty : Nat
  polarity : Polarity
  deriving DecidableEq, Repr

/-- The exchange in progress: the POLL sent, whose REPORT or miss is awaited (R108, R110). -/
structure Exchange where
  node : NodeId
  timeBase : Stamp
  commands : Vector ChannelCommand 4
  deriving DecidableEq, Repr

/-- The intent words of the control block (R171). -/
structure Control where
  gatheringWindow : Word
  provingWindow : Word
  quietInterval : Word
  holdoffBase : Word
  attemptLimit : Word
  drainPeriod : Word
  faultMask : Word
  ringBaseLow : Word
  ringBaseHigh : Word
  ringCapacity : Word
  consumerIndex : Word
  lockSetLow : Word
  lockSetHigh : Word
  deriving DecidableEq, Repr

/-- The host access on the processor face (R123). -/
inductive Access where
  | none
  | waiting (r : Request)
  | onFace (r : Request)
  | served (r : Request)
  deriving DecidableEq, Repr

/-- The memory face (R128), with the own word in flight: the position and value of a correction word
(R131), or the word address and value of a ring word (R165). -/
inductive Face where
  | idle
  | host
  | correction (p : IntentPos) (v : Word)
  | ring (addr : WordAddr) (v : Word)
  deriving DecidableEq, Repr

/-- The data last driven on the processor face for a read, lane by lane; a lane not driven is none
(R127, R129; log 21). -/
structure ReadData where
  lower : Option Byte
  upper : Option Byte
  deriving DecidableEq, Repr

/-- One incident record (R163). -/
structure Record where
  id : Byte
  cls : IncidentClass
  origin : DistrictId
  count : Nat
  members : DistrictSet
  restored : DistrictSet
  lockouts : DistrictSet
  duration : Nat
  anySaturated : Bool
  solitaryLoss : Bool
  layoutReset : Bool
  missed : Nat
  deriving DecidableEq, Repr

/-- The Ring Writer (chapter 10): the pending record queue, the list of slots waiting in CLOSING, the
missed count, the two pending record flags, the producer index, and the progress of the record being
written (none, or how many of its words are complete). -/
structure RingWriter where
  records : List Record
  closing : List SlotId
  missed : Nat
  solitaryLoss : Bool
  layoutReset : Bool
  producer : Nat
  progress : Option Nat
  deriving DecidableEq, Repr

/-- The last reset cause (R146). -/
inductive ResetCause where
  | none
  | full
  | layout
  deriving DecidableEq, Repr

/-- The state of the part, of the static RAM behind its memory face, and the queue of commands. -/
structure State where
  control : Control
  districts : Vector District 32
  adjacency : Vector Word 48
  feeds : Vector Feed 8
  /-- The booster-OK line levels as the part takes them, true for high (R91, R92). -/
  lines : Vector Bool 8
  drainTimer : Timer
  slots : Vector Slot 4
  /-- The incident id counter (R30). -/
  nextId : Byte
  /-- The restart queue, head first (R64). -/
  queue : List DistrictId
  engines : Vector Engine 4
  timeBase : Stamp
  nodes : Vector Node 8
  /-- The next address to poll (R108). -/
  nextNode : NodeId
  exchange : Option Exchange
  /-- The HOLD level, true for asserted (R157). -/
  hold : Bool
  /-- The lock freeze flag (R156). -/
  freeze : Bool
  /-- The correction set, by rising offset, no position twice (R130). -/
  corrections : List IntentPos
  /-- The window base, the strap value s (R124). -/
  windowBase : Fin 8
  access : Access
  face : Face
  readData : ReadData
  ring : RingWriter
  /-- The last-command word as the host reads it (R150, R171). -/
  lastCommand : Word
  lastResetCause : ResetCause
  /-- RESET is held (R134). -/
  inReset : Bool
  /-- The static RAM, by byte address, in canonical form (log 9). -/
  mem : List Host.Cell
  /-- The model's own counter that feeds the free values (logs 5 and 10). -/
  choices : Nat
  /-- The commands waiting, first in first out (log 1). -/
  pending : List Instr
  deriving DecidableEq, Repr

/-- The part raises no fault: every event has an effect, possibly none (INVENTORY, Faults). The type is
empty. -/
inductive Fault where
  deriving DecidableEq, Repr

/-- Why a command is refused. -/
inductive Refusal where
  /-- Raised by exec's arm of a command that has no meaning yet; safe, since nothing is claimed of it.
  No arm raises it in this model. -/
  | notModelled (mnemonic : String)
  deriving DecidableEq, Repr

/-- The default intent words of a district (R1, at the bits of R173): OFF; unmapped; feed 0, priority 3,
not reversing; weight 4, 8 steps; 4 ms, ceiling 100. Bits that carry no field are 0 after a full reset, here
and in every other intent word: a DESIGN CHOICE, since the spec gives defaults of fields only (log 31). -/
def District.defaultWords : Vector Word 5 :=
  #v[0x0000, 0x0000, 0x0030, 0x0804, 0x6404]

/-- A district context after a full reset (R26, R4). -/
def District.reset : District :=
  { words := District.defaultWords, state := .off, polarity := .a, attempts := 0, current := 0, level := 0,
    lastCause := .none, lastIncident := .none, incidentSlot := .none, role := .none, mark := false,
    invalid := false, reload := 0, flags := Flags.clear, codeAgrees := true, polled := false,
    holdoffTimer := .none, provingTimer := .none, quietTimer := .none }

/-- A feed record after a full reset, by the level of its line (R103): DOWN with the timer stopped, or
SETTLING with the timer started for the default 2.0 s. -/
def Feed.reset (high : Bool) : Feed :=
  { ceiling := 24, concurrency := 2, sagThreshold := 3, settleTime := 20,
    state := if high then .settling else .down, stress := 0, engaged := 0, history := [],
    settleTimer := if high then some 2000000 else .none, settleRestarted := false }

/-- A node table entry after a full reset (R107). -/
def Node.reset : Node :=
  { state := .absent, misses := 0, restarted := false,
    channels := Vector.replicate 4 { output := .off, newCut := false } }

/-- The control block's intent words after a full reset (R141, R153, R161). -/
def Control.reset : Control :=
  { gatheringWindow := 4, provingWindow := 50, quietInterval := 60, holdoffBase := 10, attemptLimit := 3,
    drainPeriod := 25, faultMask := 0, ringBaseLow := 0, ringBaseHigh := 0, ringCapacity := 16,
    consumerIndex := 0, lockSetLow := 0, lockSetHigh := 0 }

/-- The Ring Writer after a full reset (R168). -/
def RingWriter.reset : RingWriter :=
  { records := [], closing := [], missed := 0, solitaryLoss := false, layoutReset := false, producer := 0,
    progress := .none }

/-- Every intent-word position, by rising offset (R171 to R173). -/
def allPositions : List IntentPos :=
  [.control .gatheringWindow, .control .provingWindow, .control .quietInterval, .control .holdoffBase,
    .control .attemptLimit, .control .drainPeriod, .control .faultMask, .control .ringBaseLow,
    .control .ringBaseHigh, .control .ringCapacity, .control .consumerIndex, .control .lockSetLow,
    .control .lockSetHigh]
  ++ (indices 8).flatMap (fun k =>
      [.feed k .ceiling, .feed k .concurrency, .feed k .sagThreshold, .feed k .settleTime])
  ++ (indices 48).map (fun j => .adjacency j)
  ++ (indices 32).flatMap (fun d => (indices 5).map (fun w => .district d w))

/-- The part at the end of a full reset with the given pins sampled; `mem` and `choices` are what they
were (the RAM is not reset, and the counter is the model's own). -/
def State.afterFullReset (pins : Pins) (mem : List Host.Cell) (choices : Nat) (pending : List Instr) : State :=
  { control := Control.reset
    districts := Vector.replicate 32 District.reset
    adjacency := Vector.replicate 48 0
    feeds := tabulate 8 (fun k => Feed.reset (pins.boosters.getLsbD k.val))
    lines := tabulate 8 (fun k => pins.boosters.getLsbD k.val)
    drainTimer := some 250000
    slots := Vector.replicate 4 Slot.blank
    nextId := 0
    queue := []
    engines := Vector.replicate 4 Engine.idle
    timeBase := 0
    nodes := Vector.replicate 8 Node.reset
    nextNode := 0
    exchange := .none
    hold := pins.hold
    freeze := false
    corrections := allPositions
    windowBase := pins.straps
    access := .none
    face := .idle
    readData := { lower := .none, upper := .none }
    ring := RingWriter.reset
    lastCommand := 0
    lastResetCause := .full
    inReset := false
    mem := mem
    choices := choices
    pending := pending }

/-- The pins State.reset samples: straps 0, every booster-OK line high, HOLD released. DESIGN CHOICE,
unsafe (log 11): the board decides them. -/
def Pins.atReset : Pins :=
  { straps := 0, boosters := 0xFF, hold := false }

/-- The machine right after a full reset, with nothing listed in memory and no command waiting. -/
def State.reset : State :=
  State.afterFullReset Pins.atReset [] 0 []

end Sys2Proof.Machine
end

