-- ==== Sys2Proof/WellFormed.lean ====
section
/-! DEFINITION. Which commands are well formed. Operand ranges are in the types; what is left is the
code of UNKNOWN_COMMAND_CODE. -/

namespace Sys2Proof

/-- The code of LAYOUT_RESET (R174). -/
def codeLayoutReset : Word := 0x4C01

/-- The code of CLEAR_ALL_LOCKOUTS (R174). -/
def codeClearAllLockouts : Word := 0x4C02

/-- The code of LOCK_FREEZE (R174). -/
def codeLockFreeze : Word := 0x4C03

/-- The code of the district action CLEAR_LOCKOUT (R174). -/
def codeClearLockout : Word := 0x5A01

/-- The code of the district action CLEAR_FLAGS (R174). -/
def codeClearFlags : Word := 0x5A02

/-- UNKNOWN_COMMAND_CODE is "a write of any other nonzero code" (R150): not 0 and none of the three
command codes. Every other command is well formed. -/
def Instr.wellFormed : Instr → Bool
  | .unknownCommandCode code =>
    code != 0 && code != codeLayoutReset && code != codeClearAllLockouts && code != codeLockFreeze
  | .fullReset _
  | .layoutReset
  | .clearAllLockouts
  | .lockFreeze
  | .clearLockout _
  | .clearFlags _
  | .hostIntentWrite _ _ _
  | .districtWordWrite _ _ _ _
  | .adjacencyWrite _ _ _
  | .feedSettingWrite _ _ _ _
  | .controlSettingWrite _ _ _
  | .attemptLimitWrite _ _
  | .faultMaskWrite _ _
  | .ringSettingWrite _ _ _
  | .consumerIndexWrite _ _
  | .lockSetWrite _ _ _
  | .flagsRead _ _
  | .lastResetCauseRead _
  | .hostIntentRead _ _
  | .hostAccessBegin _
  | .hostAccessEnd
  | .accessDrop
  | .correctionWordStart
  | .correctionWordComplete
  | .ringWordStart
  | .ringWordComplete
  | .holdAssert
  | .holdRelease
  | .boosterLineLow _
  | .boosterLineHigh _
  | .settleExpiry _
  | .drainExpiry
  | .holdoffExpiry _
  | .provingExpiry _
  | .quietExpiry _
  | .gatheringTimerExpiry _
  | .stepTimerExpiry _
  | .poll
  | .report _
  | .missTimeout
  | .missGap
  | .resetHeld => true

end Sys2Proof
end

