-- ==== Sys2Proof/Machine/Operands.lean ====
section
/-! DEFINITION. How words are read and formed: bit fields, byte lanes, the fields of every intent word,
the offsets of the image and the addresses of the window (chapter 11; R124, R125, R127). -/

namespace Sys2Proof.Machine

open Sys2Proof

/-- The value of the `len` bits of w from bit `lo` up. -/
def field (w : Word) (lo len : Nat) : Nat :=
  w.toNat / 2 ^ lo % 2 ^ len

/-- w with those bits replaced by v, every other bit as it was. -/
def setField (w : Word) (lo len v : Nat) : Word :=
  BitVec.ofNat 16 (w.toNat - field w lo len * 2 ^ lo + v % 2 ^ len * 2 ^ lo)

/-- A value placed in `len` bits from bit `lo` up, to be added into a word. -/
def place (lo len v : Nat) : Nat :=
  v % 2 ^ len * 2 ^ lo

/-- A mark as a number. -/
def ofMark (b : Bool) : Nat :=
  if b then 1 else 0

/-- A value clamped to the nearer end of its range (R137). -/
def clamp (lo hi v : Nat) : Nat :=
  if v < lo then lo else if hi < v then hi else v

/-! ### Byte lanes (R127) -/

/-- The lane bits 7:0 of a word. -/
def lowerLane (w : Word) : Byte := w.extractLsb' 0 8

/-- The lane bits 15:8 of a word. -/
def upperLane (w : Word) : Byte := w.extractLsb' 8 8

/-- The word of two lanes. -/
def ofLanes (upper lower : Byte) : Word := upper ++ lower

/-- A write merged with the lane it does not carry (R127: "the written lane is merged with the other lane
of the copy"). -/
def mergeLanes (l : Lanes) (v old : Word) : Word :=
  match l with
  | .lower => ofLanes (upperLane old) (lowerLane v)
  | .upper => ofLanes (upperLane v) (lowerLane old)
  | .both => v

/-- A word returned on the requested lanes; "the other lane is not driven" (R127). -/
def onLanes (l : Lanes) (w : Word) : ReadData :=
  match l with
  | .lower => { lower := some (lowerLane w), upper := .none }
  | .upper => { lower := .none, upper := some (upperLane w) }
  | .both => { lower := some (lowerLane w), upper := some (upperLane w) }

/-- No lane driven. -/
def notDriven : ReadData := { lower := .none, upper := .none }

/-! ### Sets of districts (R169) -/

/-- A set with district d added. -/
def addDistrict (s : DistrictSet) (d : DistrictId) : DistrictSet := s ||| BitVec.twoPow 32 d.val

/-- The set of the districts of a list. -/
def setOf (l : List DistrictId) : DistrictSet := l.foldl addDistrict 0

/-- Districts 0 to 15 of a set. -/
def lowHalf (s : DistrictSet) : Word := s.extractLsb' 0 16

/-- Districts 16 to 31 of a set. -/
def highHalf (s : DistrictSet) : Word := s.extractLsb' 16 16

/-! ### District intent words (R1, R173) -/

/-- The intent of a word 0. Code 3 is never stored (R138) and reads as OFF here (log 28). -/
def intentOf (w : Word) : Intent :=
  match field w 0 2 with
  | 1 => .on
  | 2 => .onManual
  | _ => .off

/-- The district's intent. -/
def District.intent (x : District) : Intent := intentOf x.words[0]

/-- Whether the intent is ON or ON_MANUAL. -/
def Intent.energising : Intent → Bool
  | .off => false
  | .on => true
  | .onManual => true

/-- The node field: 0 means unmapped (R1). -/
def District.nodeField (x : District) : Nat := field x.words[1] 0 4

/-- The node a node field names: address k is node position k - 1; 0 names none. -/
def nodeOfField (n : Nat) : Option NodeId :=
  if h : 1 ≤ n ∧ n ≤ 8 then some ⟨n - 1, by omega⟩ else none

/-- The node the district is mapped to. -/
def District.node (x : District) : Option NodeId := nodeOfField x.nodeField

/-- The channel field. -/
def District.channel (x : District) : ChannelId := Fin.ofNat 4 (field x.words[1] 4 2)

/-- The feed field; 8 to 15 are never stored (R140; log 28). -/
def District.feed (x : District) : FeedId := Fin.ofNat 8 (field x.words[2] 0 4)

/-- The restart priority, 0 first. -/
def District.priority (x : District) : Nat := field x.words[2] 4 2

/-- Whether the district is a reversing section. -/
def District.reversing (x : District) : Bool := field x.words[2] 8 1 == 1

/-- The inrush weight, in stress units. -/
def District.weight (x : District) : Nat := field x.words[3] 0 4

/-- The ramp steps. -/
def District.steps (x : District) : Nat := field x.words[3] 8 5

/-- The step interval, in ms. -/
def District.interval (x : District) : Nat := field x.words[4] 0 5

/-- The step ceiling, in units of 40 mA. -/
def District.ceiling (x : District) : Nat := field x.words[4] 8 8

/-- The bits of an intent word that carry a field (R173); a difference elsewhere is no alteration (R169). -/
def fieldBits (w : Fin 5) : Word :=
  match w with
  | 0 => 0x0003
  | 1 => 0x003F
  | 2 => 0x013F
  | 3 => 0x1F0F
  | 4 => 0xFF1F

/-- Whether two values of intent word w differ in a field (R136, R169). -/
def fieldsDiffer (w : Fin 5) (a b : Word) : Bool :=
  a &&& fieldBits w != b &&& fieldBits w

/-! ### Control, feed and adjacency words (R171, R172) -/

/-- The gathering window in microseconds (R33). -/
def Control.gatheringMicros (c : Control) : Nat := field c.gatheringWindow 0 5 * 1000

/-- The proving window in microseconds (R86). -/
def Control.provingMicros (c : Control) : Nat := field c.provingWindow 0 8 * 10000

/-- The quiet interval in microseconds (R20). -/
def Control.quietMicros (c : Control) : Nat := field c.quietInterval 0 8 * 1000000

/-- The hold-off length in microseconds: "the lesser of base × 2^count and 255", in units of 100 ms (R18). -/
def Control.holdoffMicros (c : Control) (count : Nat) : Nat :=
  min (field c.holdoffBase 0 8 * 2 ^ count) 255 * 100000

/-- The attempt limit (R19). -/
def Control.limit (c : Control) : Nat := field c.attemptLimit 0 3

/-- The drain period in microseconds (R97). -/
def Control.drainMicros (c : Control) : Nat := field c.drainPeriod 0 8 * 10000

/-- The ring base, a word address (R142, R171). -/
def Control.ringBase (c : Control) : Nat := c.ringBaseLow.toNat + field c.ringBaseHigh 0 3 * 2 ^ 16

/-- The ring capacity, in records (R161). -/
def Control.capacity (c : Control) : Nat := c.ringCapacity.toNat

/-- The consumer index (R161). -/
def Control.consumer (c : Control) : Nat := c.consumerIndex.toNat

/-- The effective lock set (R153). -/
def Control.lockSet (c : Control) : DistrictSet := c.lockSetHigh ++ c.lockSetLow

/-- One intent word of the control block. -/
def Control.read (c : Control) : ControlReg → Word
  | .gatheringWindow => c.gatheringWindow
  | .provingWindow => c.provingWindow
  | .quietInterval => c.quietInterval
  | .holdoffBase => c.holdoffBase
  | .attemptLimit => c.attemptLimit
  | .drainPeriod => c.drainPeriod
  | .faultMask => c.faultMask
  | .ringBaseLow => c.ringBaseLow
  | .ringBaseHigh => c.ringBaseHigh
  | .ringCapacity => c.ringCapacity
  | .consumerIndex => c.consumerIndex
  | .lockSetLow => c.lockSetLow
  | .lockSetHigh => c.lockSetHigh

/-- One intent word of the control block replaced. -/
def Control.store (c : Control) (r : ControlReg) (v : Word) : Control :=
  match r with
  | .gatheringWindow => { c with gatheringWindow := v }
  | .provingWindow => { c with provingWindow := v }
  | .quietInterval => { c with quietInterval := v }
  | .holdoffBase => { c with holdoffBase := v }
  | .attemptLimit => { c with attemptLimit := v }
  | .drainPeriod => { c with drainPeriod := v }
  | .faultMask => { c with faultMask := v }
  | .ringBaseLow => { c with ringBaseLow := v }
  | .ringBaseHigh => { c with ringBaseHigh := v }
  | .ringCapacity => { c with ringCapacity := v }
  | .consumerIndex => { c with consumerIndex := v }
  | .lockSetLow => { c with lockSetLow := v }
  | .lockSetHigh => { c with lockSetHigh := v }

/-- One setting word of a feed. -/
def Feed.read (f : Feed) : FeedReg → Word
  | .ceiling => f.ceiling
  | .concurrency => f.concurrency
  | .sagThreshold => f.sagThreshold
  | .settleTime => f.settleTime

/-- One setting word of a feed replaced. -/
def Feed.store (f : Feed) (r : FeedReg) (v : Word) : Feed :=
  match r with
  | .ceiling => { f with ceiling := v }
  | .concurrency => { f with concurrency := v }
  | .sagThreshold => { f with sagThreshold := v }
  | .settleTime => { f with settleTime := v }

/-- The feed's ceiling, in stress units (R90). -/
def Feed.ceilingUnits (f : Feed) : Nat := field f.ceiling 0 6

/-- The feed's concurrency, in ramps (R90). -/
def Feed.concurrencyRamps (f : Feed) : Nat := field f.concurrency 0 3

/-- The feed's sag threshold, in members (R42). -/
def Feed.sagMembers (f : Feed) : Nat := field f.sagThreshold 0 4

/-- The feed's settle time in microseconds (R92). -/
def Feed.settleMicros (f : Feed) : Nat := field f.settleTime 0 8 * 100000

/-- District a of an adjacency word (R172). -/
def adjacentA (w : Word) : Nat := field w 0 6

/-- District b of an adjacency word (R172). -/
def adjacentB (w : Word) : Nat := field w 8 6

/-- The valid flag of an adjacency word (R172). -/
def adjacentValid (w : Word) : Bool := w.getLsbD 15

/-- Whether an adjacency word names the unordered pair of x and y (R54, R55). -/
def namesPair (w : Word) (x y : Nat) : Bool :=
  (adjacentA w == x && adjacentB w == y) || (adjacentA w == y && adjacentB w == x)

/-! ### Codes (R174) -/

/-- The code of a district state. -/
def DistrictState.code : DistrictState → Nat
  | .off => 0
  | .queued => 1
  | .ramping => 2
  | .proving => 3
  | .live => 4
  | .reversing => 5
  | .tripped => 6
  | .holdoff => 7
  | .gated => 8
  | .stopped => 9
  | .lockout => 10
  | .locked => 11
  | .unreachable => 12
  | .checkHold => 13

/-- The energised states: RAMPING, PROVING, LIVE and REVERSING (R9). -/
def DistrictState.energised : DistrictState → Bool
  | .ramping | .proving | .live | .reversing => true
  | .off | .queued | .tripped | .holdoff | .gated | .stopped | .lockout | .locked | .unreachable
  | .checkHold => false

/-- The settled states (R9, R49). -/
def DistrictState.settled : DistrictState → Bool
  | .live | .off | .stopped | .lockout | .locked | .unreachable | .checkHold => true
  | .queued | .ramping | .proving | .reversing | .tripped | .holdoff | .gated => false

/-- The states in which writes to words 1 to 4 are accepted (R139). -/
def DistrictState.accepting : DistrictState → Bool
  | .off | .lockout | .unreachable | .checkHold => true
  | .queued | .ramping | .proving | .live | .reversing | .tripped | .holdoff | .gated | .stopped
  | .locked => false

/-- The code of a cut cause, NONE being 0. -/
def causeCode : Option Cause → Nat
  | .none => 0
  | some .overcurrent => 1
  | some .overload => 2
  | some .nodeHeat => 3
  | some .undervoltage => 4
  | some .stall => 5

/-- The cause a REPORT's cause code offers: "Cause codes 0, 5, 6 and 7 are taken as OVERCURRENT" (R175, R120). -/
def causeOfCode (n : Nat) : Cause :=
  match n with
  | 2 => .overload
  | 3 => .nodeHeat
  | 4 => .undervoltage
  | _ => .overcurrent

/-- Attribution priority, highest first OVERCURRENT, OVERLOAD, STALL, NODE_HEAT, UNDERVOLTAGE (R36). -/
def Cause.priority : Cause → Nat
  | .overcurrent => 5
  | .overload => 4
  | .stall => 3
  | .nodeHeat => 2
  | .undervoltage => 1

/-- The fault causes: the four above UNDERVOLTAGE (R36). -/
def Cause.isFault : Cause → Bool
  | .undervoltage => false
  | .overcurrent | .overload | .stall | .nodeHeat => true

/-- The code of a class. -/
def IncidentClass.code : IncidentClass → Nat
  | .short => 0
  | .bridge => 1
  | .reverse => 2
  | .multi => 3
  | .feedSag => 4
  | .undervolt => 5

/-- The code of a role. -/
def Role.code : Role → Nat
  | .none => 0
  | .follower => 1
  | .suspect => 2
  | .flip => 3

/-- The code of a slot state (R173). -/
def SlotState.code : SlotState → Nat
  | .free => 0
  | .gathering => 1
  | .recovering => 2
  | .closing => 3

/-- GATHERING and RECOVERING are the open states (R29). -/
def SlotState.isOpen : SlotState → Bool
  | .gathering | .recovering => true
  | .free | .closing => false

/-- The code of a feed state (R172). -/
def FeedState.code : FeedState → Nat
  | .down => 0
  | .settling => 1
  | .up => 2

/-- The code of a node state (R171). -/
def NodeState.code : NodeState → Nat
  | .absent => 0
  | .present => 1
  | .lost => 2

/-- The code of a reset cause (R171). -/
def ResetCause.code : ResetCause → Nat
  | .none => 0
  | .full => 1
  | .layout => 2

/-- The code of a polarity. -/
def Polarity.code : Polarity → Nat
  | .a => 0
  | .b => 1

/-- The other polarity (R56). -/
def Polarity.toggle : Polarity → Polarity
  | .a => .b
  | .b => .a

/-- The code of a channel mode. -/
def Mode.code : Mode → Nat
  | .holdOff => 0
  | .step => 1
  | .full => 2

/-- The output state of a REPORT's code; "Code 3 is stored and taken as CUT" (R175). -/
def outputOfCode (n : Nat) : Output :=
  match n with
  | 0 => .off
  | 1 => .on
  | _ => .cut

/-! ### Offsets and addresses (R124, R125, R170) -/

/-- The offset of a control intent word (R171). -/
def controlOffset : ControlReg → Nat
  | .gatheringWindow => 0x010
  | .provingWindow => 0x012
  | .quietInterval => 0x014
  | .holdoffBase => 0x016
  | .attemptLimit => 0x018
  | .drainPeriod => 0x01A
  | .faultMask => 0x01C
  | .ringBaseLow => 0x020
  | .ringBaseHigh => 0x022
  | .ringCapacity => 0x024
  | .consumerIndex => 0x026
  | .lockSetLow => 0x028
  | .lockSetHigh => 0x02A

/-- The offset of a feed setting inside its feed block (R172). -/
def feedOffset : FeedReg → Nat
  | .ceiling => 0x0
  | .concurrency => 0x2
  | .sagThreshold => 0x4
  | .settleTime => 0x6

/-- The offset of an intent-word position in the image. -/
def positionOffset : IntentPos → Nat
  | .control r => controlOffset r
  | .feed k r => 0x080 + 16 * k.val + feedOffset r
  | .adjacency j => 0x100 + 2 * j.val
  | .district d w => 0x200 + 32 * d.val + 2 * w.val

/-- The live words (R147, R148, R102, R144). -/
inductive LiveWord where
  | lastCommand
  | status
  | producerIndex
  | nodeState (k : NodeId)
  | feedState (k : FeedId)
  | feedHistory (k : FeedId) (second : Bool)
  | withFlags (high : Bool)
  | inLockout (high : Bool)
  | inLive (high : Bool)
  | queueView (i : Fin 32)
  | incidentView (n : SlotId) (i : Fin 8)
  | districtState (d : DistrictId)
  | districtLevel (d : DistrictId)
  | districtCause (d : DistrictId)
  deriving DecidableEq, Repr

/-- What a window word is: its kind (R125) and which word of that kind. -/
inductive WordRef where
  | intent (p : IntentPos)
  | live (w : LiveWord)
  | lastResetCause
  | flags (d : DistrictId)
  | command
  | action (d : DistrictId)
  | owner
  deriving DecidableEq, Repr

/-- The words of the control block by offset (R171). -/
def controlWords : List (Nat × WordRef) :=
  [(0x000, .command), (0x002, .live .lastCommand), (0x004, .live .status), (0x006, .lastResetCause),
    (0x008, .live .producerIndex), (0x010, .intent (.control .gatheringWindow)),
    (0x012, .intent (.control .provingWindow)), (0x014, .intent (.control .quietInterval)),
    (0x016, .intent (.control .holdoffBase)), (0x018, .intent (.control .attemptLimit)),
    (0x01A, .intent (.control .drainPeriod)), (0x01C, .intent (.control .faultMask)),
    (0x020, .intent (.control .ringBaseLow)), (0x022, .intent (.control .ringBaseHigh)),
    (0x024, .intent (.control .ringCapacity)), (0x026, .intent (.control .consumerIndex)),
    (0x028, .intent (.control .lockSetLow)), (0x02A, .intent (.control .lockSetHigh)),
    (0x030, .live (.nodeState 0)), (0x032, .live (.nodeState 1)), (0x034, .live (.nodeState 2)),
    (0x036, .live (.nodeState 3)), (0x038, .live (.nodeState 4)), (0x03A, .live (.nodeState 5)),
    (0x03C, .live (.nodeState 6)), (0x03E, .live (.nodeState 7))]

/-- A word of feed block k by its offset in the block (R172). -/
def feedWordAt (k : FeedId) (o : Nat) : WordRef :=
  match o with
  | 0x0 => .intent (.feed k .ceiling)
  | 0x2 => .intent (.feed k .concurrency)
  | 0x4 => .intent (.feed k .sagThreshold)
  | 0x6 => .intent (.feed k .settleTime)
  | 0x8 => .live (.feedState k)
  | 0xA => .live (.feedHistory k false)
  | 0xC => .live (.feedHistory k true)
  | _ => .owner

/-- A word of the summary block by its offset in the image (R173). -/
def summaryWordAt (o : Nat) : WordRef :=
  if o = 0x160 then .live (.withFlags false)
  else if o = 0x162 then .live (.withFlags true)
  else if o = 0x164 then .live (.inLockout false)
  else if o = 0x166 then .live (.inLockout true)
  else if o = 0x168 then .live (.inLive false)
  else if o = 0x16A then .live (.inLive true)
  else if o < 0x180 then .owner
  else if o < 0x1C0 then .live (.queueView (Fin.ofNat 32 ((o - 0x180) / 2)))
  else .live (.incidentView (Fin.ofNat 4 ((o - 0x1C0) / 16)) (Fin.ofNat 8 ((o - 0x1C0) % 16 / 2)))

/-- A word of district block d by its offset in the block (R173). -/
def districtWordAt (d : DistrictId) (o : Nat) : WordRef :=
  match o with
  | 0x00 => .intent (.district d 0)
  | 0x02 => .intent (.district d 1)
  | 0x04 => .intent (.district d 2)
  | 0x06 => .intent (.district d 3)
  | 0x08 => .intent (.district d 4)
  | 0x0A => .live (.districtState d)
  | 0x0C => .live (.districtLevel d)
  | 0x0E => .live (.districtCause d)
  | 0x10 => .flags d
  | 0x12 => .action d
  | _ => .owner

/-- The word at an even offset of the image (R125, R170): "every word not listed is an owner word". -/
def wordAtOffset (o : Nat) : WordRef :=
  if o < 0x080 then (controlWords.lookup o).getD .owner
  else if o < 0x100 then feedWordAt (Fin.ofNat 8 ((o - 0x080) / 16)) ((o - 0x080) % 16)
  else if o < 0x160 then .intent (.adjacency (Fin.ofNat 48 ((o - 0x100) / 2)))
  else if o < 0x200 then summaryWordAt o
  else if o < 0x600 then districtWordAt (Fin.ofNat 32 ((o - 0x200) / 32)) ((o - 0x200) % 32)
  else .owner

/-- The first word address of the window at strap value s: byte address s × 0x20000 + 0x1F000, halved (R124). -/
def windowStart (s : Fin 8) : Nat := s.val * 0x10000 + 0xF800

/-- Whether a word address lies in the window (R124). -/
def inWindow (s : Fin 8) (a : WordAddr) : Bool :=
  windowStart s ≤ a.toNat && a.toNat < windowStart s + 2048

/-- The word an access addresses: a word of the image, or a word outside the window, which is carried
across like an owner word (R123, R126). -/
def refAt (s : Fin 8) (a : WordAddr) : WordRef :=
  if inWindow s a then wordAtOffset ((a.toNat - windowStart s) * 2) else .owner

/-- The word address of an intent-word position. -/
def addressOf (s : Fin 8) (p : IntentPos) : WordAddr :=
  BitVec.ofNat 19 (windowStart s + positionOffset p / 2)

end Sys2Proof.Machine
end

