-- ==== Sys2Proof/Machine/Tables.lean ====
section
/-! DEFINITION. Reading and replacing one district, slot, feed, engine or node of the state: the one
home of each. -/

namespace Sys2Proof.Machine

open Sys2Proof

/-- The context of district d. -/
def State.dist (s : State) (d : DistrictId) : District := s.districts[d]

/-- The context of district d changed by f, everything else as it was. -/
def State.modDist (s : State) (d : DistrictId) (f : District → District) : State :=
  { s with districts := put s.districts d (f (s.dist d)) }

/-- Incident slot n. -/
def State.slot (s : State) (n : SlotId) : Slot := s.slots[n]

/-- Slot n changed by f. -/
def State.modSlot (s : State) (n : SlotId) (f : Slot → Slot) : State :=
  { s with slots := put s.slots n (f (s.slot n)) }

/-- Feed record k. -/
def State.feed (s : State) (k : FeedId) : Feed := s.feeds[k]

/-- Feed record k changed by f. -/
def State.modFeed (s : State) (k : FeedId) (f : Feed → Feed) : State :=
  { s with feeds := put s.feeds k (f (s.feed k)) }

/-- Ramp engine e. -/
def State.engine (s : State) (e : EngineId) : Engine := s.engines[e]

/-- Engine e changed by f. -/
def State.modEngine (s : State) (e : EngineId) (f : Engine → Engine) : State :=
  { s with engines := put s.engines e (f (s.engine e)) }

/-- Node table entry k. -/
def State.node (s : State) (k : NodeId) : Node := s.nodes[k]

/-- Node table entry k changed by f. -/
def State.modNode (s : State) (k : NodeId) (f : Node → Node) : State :=
  { s with nodes := put s.nodes k (f (s.node k)) }

/-- The control settings changed by f. -/
def State.modControl (s : State) (f : Control → Control) : State :=
  { s with control := f s.control }

/-- The Ring Writer changed by f. -/
def State.modRing (s : State) (f : RingWriter → RingWriter) : State :=
  { s with ring := f s.ring }

end Sys2Proof.Machine
end

