-- ==== Sys2Proof/Machine/Flags.lean ====
section
/-! DEFINITION. Flags: the seven latched flags of a district, the ring's empty and full tests, the five
FAULT conditions, and the levels of FAULT and WAIT. -/

namespace Sys2Proof.Machine

open Sys2Proof

/-! ### Latched flags (R8, R145) -/

/-- Whether any flag is set. -/
def Flags.any (f : Flags) : Bool :=
  f.tripped || f.refused || f.lockoutEntered || f.rampStalled || f.flipped || f.restored || f.checkError

/-- The flags word (R173). -/
def Flags.word (f : Flags) : Word :=
  BitVec.ofNat 16 (place 0 1 (ofMark f.tripped) + place 1 1 (ofMark f.refused)
    + place 2 1 (ofMark f.lockoutEntered) + place 3 1 (ofMark f.rampStalled) + place 4 1 (ofMark f.flipped)
    + place 5 1 (ofMark f.restored) + place 6 1 (ofMark f.checkError))

/-- TRIPPED latched. -/
def District.latchTripped (x : District) : District := { x with flags := { x.flags with tripped := true } }

/-- REFUSED latched. -/
def District.latchRefused (x : District) : District := { x with flags := { x.flags with refused := true } }

/-- LOCKOUT_ENTERED latched. -/
def District.latchLockout (x : District) : District :=
  { x with flags := { x.flags with lockoutEntered := true } }

/-- RAMP_STALLED latched. -/
def District.latchStalled (x : District) : District :=
  { x with flags := { x.flags with rampStalled := true } }

/-- FLIPPED latched. -/
def District.latchFlipped (x : District) : District := { x with flags := { x.flags with flipped := true } }

/-- RESTORED latched. -/
def District.latchRestored (x : District) : District :=
  { x with flags := { x.flags with restored := true } }

/-- CHECK_ERROR latched. -/
def District.latchCheckError (x : District) : District :=
  { x with flags := { x.flags with checkError := true } }

/-- Every flag cleared (R145, R149). -/
def District.clearFlags (x : District) : District := { x with flags := Flags.clear }

/-! ### The ring (R161) -/

/-- The ring is empty "when the producer index equals the consumer index". -/
def State.ringEmpty (s : State) : Bool := s.ring.producer == s.control.consumer

/-- The ring is full "when (producer + 1) modulo capacity equals the consumer index". -/
def State.ringFull (s : State) : Bool := (s.ring.producer + 1) % s.control.capacity == s.control.consumer

/-! ### FAULT (R159, R160) -/

/-- LOCKOUT: any district is in LOCKOUT. -/
def State.lockoutHolds (s : State) : Bool := (indices 32).any (fun d => (s.dist d).state == .lockout)

/-- CHECK: any district's context-invalid flag is set. -/
def State.checkHolds (s : State) : Bool := (indices 32).any (fun d => (s.dist d).invalid)

/-- FEED_DOWN: any feed is DOWN. -/
def State.feedDownHolds (s : State) : Bool := (indices 8).any (fun k => (s.feed k).state == .down)

/-- NODE_LOST: any node is LOST. -/
def State.nodeLostHolds (s : State) : Bool := (indices 8).any (fun k => (s.node k).state == .lost)

/-- RING_BLOCKED: the pending record queue is not empty and the ring is full. -/
def State.ringBlockedHolds (s : State) : Bool := !s.ring.records.isEmpty && s.ringFull

/-- FAULT is asserted "while at least one condition holds whose flag in the fault mask is clear" (R159);
"While RESET is held, the output is released" (R160). -/
def State.faultAsserted (s : State) : Bool :=
  !s.inReset &&
    ((s.lockoutHolds && !s.control.faultMask.getLsbD 0) || (s.checkHolds && !s.control.faultMask.getLsbD 1)
      || (s.feedDownHolds && !s.control.faultMask.getLsbD 2) || (s.nodeLostHolds && !s.control.faultMask.getLsbD 3)
      || (s.ringBlockedHolds && !s.control.faultMask.getLsbD 4))

/-- "WAIT is asserted in WAITING alone" (R123). -/
def State.waitAsserted (s : State) : Bool :=
  match s.access with
  | .waiting _ => true
  | .none | .onFace _ | .served _ => false

/-- The open incident count: slots in GATHERING or RECOVERING (R29). -/
def State.openCount (s : State) : Nat := ((indices 4).filter (fun n => (s.slot n).state.isOpen)).length

end Sys2Proof.Machine
end

