-- ==== Sys2Proof/Machine/Ops.lean ====
section
/-! DEFINITION. The shared operations: the static RAM, intent copies and marks, a district's entry to a
state, the restart queue, the engines, check errors, notices to the Incident Unit, claims and the
dispatcher. -/

namespace Sys2Proof.Machine

open Sys2Proof

/-! ### The static RAM (R123, log 9) -/

/-- What a byte of the RAM that nothing has written reads as: 0x00, a DESIGN CHOICE, unsafe (log 9). -/
def Memory.unwritten : Byte := 0x00

/-- The byte at a byte address. -/
def Memory.byte : List Host.Cell → Nat → Byte
  | [], _ => Memory.unwritten
  | (x, b) :: rest, a => if x = a then b else Memory.byte rest a

/-- One byte written, keeping the canonical form. -/
def Memory.set : List Host.Cell → Nat → Byte → List Host.Cell
  | [], a, b => if b = Memory.unwritten then [] else [(a, b)]
  | (x, v) :: rest, a, b =>
    if a < x then
      if b = Memory.unwritten then (x, v) :: rest else (a, b) :: (x, v) :: rest
    else if a = x then
      if b = Memory.unwritten then rest else (a, b) :: rest
    else (x, v) :: Memory.set rest a b

/-- The canonical form: addresses strictly rising, and no entry equal to what an unlisted address reads as. -/
def Memory.wf : List Host.Cell → Bool
  | [] => true
  | (a, b) :: rest => b != Memory.unwritten && rest.all (fun c => decide (a < c.1)) && Memory.wf rest

/-- The word at a word address; "the lower byte lane carries the byte at the even byte address" (R123). -/
def Memory.word (m : List Host.Cell) (a : WordAddr) : Word :=
  ofLanes (Memory.byte m (2 * a.toNat + 1)) (Memory.byte m (2 * a.toNat))

/-- A write on the enabled lanes. -/
def Memory.write (m : List Host.Cell) (a : WordAddr) (l : Lanes) (v : Word) : List Host.Cell :=
  match l with
  | .lower => Memory.set m (2 * a.toNat) (lowerLane v)
  | .upper => Memory.set m (2 * a.toNat + 1) (upperLane v)
  | .both => Memory.set (Memory.set m (2 * a.toNat) (lowerLane v)) (2 * a.toNat + 1) (upperLane v)

/-- A write of the state's memory on the enabled lanes. -/
def State.writeMem (s : State) (a : WordAddr) (l : Lanes) (v : Word) : State :=
  { s with mem := Memory.write s.mem a l v }

/-! ### Free orders (log 5) -/

/-- A list arranged in the free order number n: each position in turn takes the item the free value
picks of those left. A list of at most one item is itself. -/
def arrangeFrom {α : Type} (n : Nat) : Nat → List α → List α
  | 0, l => l
  | k + 1, l =>
    if l.length ≤ 1 then l
    else
      match l[Config.pick n k % l.length]? with
      | some a => a :: arrangeFrom n k (l.eraseIdx (Config.pick n k % l.length))
      | .none => l

/-- The claims of a list taken in the next free order, `f` taking one of them. -/
def State.inFreeOrder {α : Type} (s : State) (l : List α) (f : α → State → State) : State :=
  if l.length ≤ 1 then l.foldl (fun t a => f a t) s
  else (arrangeFrom s.choices l.length l).foldl (fun t a => f a t) { s with choices := s.choices + 1 }

/-! ### Intent copies and the correction set (R1, R126, R130, R133) -/

/-- The part's copy of an intent word. -/
def State.copy (s : State) : IntentPos → Word
  | .control r => s.control.read r
  | .feed k r => (s.feed k).read r
  | .adjacency j => s.adjacency[j]
  | .district d w => (s.dist d).words[w]

/-- A district's copy of an intent word replaced; the check code is computed anew "whenever it changes
any of them" (R21). -/
def District.setWord (x : District) (w : Fin 5) (v : Word) : District :=
  { x with words := put x.words w v, codeAgrees := true }

/-- The part's copy of an intent word replaced. -/
def State.setCopy (s : State) (p : IntentPos) (v : Word) : State :=
  match p with
  | .control r => s.modControl (fun c => c.store r v)
  | .feed k r => s.modFeed k (fun f => f.store r v)
  | .adjacency j => { s with adjacency := put s.adjacency j v }
  | .district d w => s.modDist d (fun x => x.setWord w v)

/-- A position added to a correction set, which stays in the order of the offsets. -/
def insertPosition (p : IntentPos) : List IntentPos → List IntentPos
  | [] => [p]
  | q :: rest =>
    if q = p then q :: rest
    else if positionOffset p < positionOffset q then p :: q :: rest
    else q :: insertPosition p rest

/-- Whether a position is marked for correction. -/
def State.marked (s : State) (p : IntentPos) : Bool := s.corrections.contains p

/-- Whether a position is an intent word of a district whose context is invalid. -/
def State.ofInvalid (s : State) : IntentPos → Bool
  | .district d _ => (s.dist d).invalid
  | .control _ => false
  | .feed _ _ => false
  | .adjacency _ => false

/-- A position marked for correction. While a district's context is invalid "the Correction Writer places
no mark on that district's five intent words" (R133). -/
def State.mark (s : State) (p : IntentPos) : State :=
  if s.ofInvalid p then s else { s with corrections := insertPosition p s.corrections }

/-- A position's mark cleared. -/
def State.unmark (s : State) (p : IntentPos) : State :=
  { s with corrections := s.corrections.filter (fun q => q != p) }

/-- The five marks of district d removed (R133). -/
def State.unmarkDistrict (s : State) (d : DistrictId) : State :=
  { s with corrections := s.corrections.filter (fun q =>
      match q with
      | .district d' _ => d' != d
      | .control _ | .feed _ _ | .adjacency _ => true) }

/-- A filtered host write stored: "the filtered value goes into the copy and into memory, and the mark is
cleared at the same event" (R132), on both lanes (R127). -/
def State.storeIntent (s : State) (p : IntentPos) (v : Word) : State :=
  ((s.setCopy p v).unmark p).writeMem (addressOf s.windowBase p) .both v

/-- District d's intent set to OFF in the copy by the part. -/
def State.setIntentOff (s : State) (d : DistrictId) : State :=
  s.modDist d (fun x => x.setWord 0 (x.words[0] &&& 0xFFFC))

/-! ### Entering a state (R5, R7, R9, R18, R20, R35, R86) -/

/-- The recovery mark on entry to a state (R7): on for REVERSING; kept for QUEUED (whose entries set it
first), RAMPING and PROVING; off for every other. -/
def markOnEntry (st : DistrictState) (m : Bool) : Bool :=
  match st with
  | .reversing => true
  | .queued | .ramping | .proving => m
  | .off | .live | .tripped | .holdoff | .gated | .stopped | .lockout | .locked | .unreachable
  | .checkHold => false

/-- The commanded level on entry to a state (R5, R9): 16 for FULL, 0 for HOLD_OFF; in RAMPING the engine
sets it. -/
def levelOnEntry (st : DistrictState) (level : Nat) : Nat :=
  match st with
  | .proving | .live | .reversing => 16
  | .ramping => level
  | .off | .queued | .tripped | .holdoff | .gated | .stopped | .lockout | .locked | .unreachable
  | .checkHold => 0

/-- Whether a context leaving its state gives up a solitary role: "Its role field holds the role until it
leaves HOLDOFF or the flip. The role then becomes none" (R35; R56, R62). Where a loss (R115), a lock (R154) or a
return to the queue (R60) takes a solitary district there, those rules say "the role is kept"; that R35's
ending comes first is the model's reading (log 18). -/
def District.dropsRole (x : District) : Bool :=
  x.incidentSlot == .none && (x.state == .holdoff || x.state == .reversing)

/-- A context entering state st: "On leaving a state, its timer stops without expiring. On entering a
state, its timer starts" (R9), with the length in force at the entry. -/
def District.enter (c : Control) (st : DistrictState) (x : District) : District :=
  { x with
    state := st
    level := levelOnEntry st x.level
    mark := markOnEntry st x.mark
    role := if x.dropsRole then .none else x.role
    holdoffTimer := if st = .holdoff then some (c.holdoffMicros x.attempts) else .none
    provingTimer := if st = .proving then some c.provingMicros else .none
    quietTimer := if st = .live then some c.quietMicros else .none
    polled := if st = .reversing then false else x.polled }

/-- District d entering state st. -/
def State.enter (s : State) (d : DistrictId) (st : DistrictState) : State :=
  s.modDist d (District.enter s.control st)

/-! ### The restart queue (R64 to R67) -/

/-- The position after the last entry that satisfies P; the head if none does. -/
def placeAfterLast (P : DistrictId → Bool) (q : List DistrictId) : Nat :=
  q.length - q.reverse.findIdx P

/-- d inserted after the last entry that satisfies P. -/
def insertAfterLast (P : DistrictId → Bool) (d : DistrictId) (q : List DistrictId) : List DistrictId :=
  q.take (placeAfterLast P q) ++ d :: q.drop (placeAfterLast P q)

/-- A normal entry: "directly after the last queue entry whose priority is equal to or lower in number
than its own" (R65). -/
def State.insertNormal (s : State) (d : DistrictId) : State :=
  { s with queue :=
      insertAfterLast (fun q => decide ((s.dist q).priority ≤ (s.dist d).priority)) d s.queue }

/-- A return to the queue: "the position after the last entry whose priority is lower in number than its
own" (R66). -/
def State.insertReturned (s : State) (d : DistrictId) : State :=
  { s with queue :=
      insertAfterLast (fun q => decide ((s.dist q).priority < (s.dist d).priority)) d s.queue }

/-- District d enters QUEUED by a normal entry, with the recovery mark given (R7, R65). -/
def State.enterQueued (s : State) (d : DistrictId) (recovering : Bool) : State :=
  ((s.modDist d (fun x => { x with mark := recovering })).enter d .queued).insertNormal d

/-- District d returns to the queue ahead of its priority, its mark as it stands (R66). -/
def State.returnToQueue (s : State) (d : DistrictId) : State :=
  (s.enter d .queued).insertReturned d

/-! ### The ramp engines (R19, R74, R81) -/

/-- The engine that holds district d. -/
def State.engineOf (s : State) (d : DistrictId) : Option EngineId :=
  (indices 4).find? (fun e => (s.engine e).district == some d)

/-- An engine freed (R81): IDLE, district none, step index 0, stall count 0, timer stopped; "the
engaged-ramp count of the feed the engine took at grant falls by 1". -/
def State.freeEngine (s : State) (e : EngineId) : State :=
  (s.modFeed (s.engine e).feed (fun f => { f with engaged := f.engaged - 1 })).modEngine e
    (fun x => { x with district := .none, index := 0, stalls := 0, timer := .none })

/-- The engine that holds d, if any, freed. -/
def State.freeEngineOf (s : State) (d : DistrictId) : State :=
  match s.engineOf d with
  | some e => s.freeEngine e
  | .none => s

/-- One attempt counted if the recovery mark is on; "A rise that would take it above the limit leaves it
at the limit" (R19). -/
def State.countAttempt (s : State) (d : DistrictId) : State :=
  s.modDist d (fun x => if x.mark then { x with attempts := min (x.attempts + 1) s.control.limit } else x)

/-- District d out of the restart queue and out of the engine that holds it, with no attempt counted
(R13, R67, R82). -/
def State.depart (s : State) (d : DistrictId) : State :=
  let t := s.freeEngineOf d
  { t with queue := t.queue.erase d }

/-! ### Context checking (R21, R22) -/

/-- Whether a reading of d's context that R21 checks raises a check error: "While the context-invalid flag
is set, the store does not check the context". -/
def State.checkFails (s : State) (d : DistrictId) : Bool :=
  !(s.dist d).invalid && !(s.dist d).codeAgrees

/-- The effects of a check error at d (R22): unless LOCKED, to CHECK_HOLD, out of engine and queue with no
attempt counted; the flag set, the reload set emptied, CHECK_ERROR latched; the district's marks removed
(R133). -/
def State.checkError (s : State) (d : DistrictId) : State :=
  let t := if (s.dist d).state = .locked then s else (s.depart d).enter d .checkHold
  (t.modDist d (fun x => ({ x with invalid := true, reload := 0 } : District).latchCheckError)).unmarkDistrict d

/-! ### Slots, closing and records (R47 to R50, R162, R163) -/

/-- The open incident d is a member of (R6, R29). -/
def State.openSlotOf (s : State) (d : DistrictId) : Option SlotId :=
  match (s.dist d).incidentSlot with
  | some n => if (s.slot n).state.isOpen then some n else .none
  | .none => .none

/-- The record a slot forms at its entry to CLOSING (R49, R163); the Ring Writer's own fields come when it
begins the record (R164). -/
def Slot.record (x : Slot) : Record :=
  { id := x.id
    cls := x.cls.getD .undervolt
    origin := x.origin.getD 0
    count := x.members.length
    members := setOf (x.members.map Member.district)
    restored := x.restored
    lockouts := x.lockouts
    duration := x.elapsed
    anySaturated := x.anySaturated
    solitaryLoss := false
    layoutReset := false
    missed := 0 }

/-- The Ring Writer accepts the record of the first slot waiting in CLOSING, if its queue holds fewer than
four; "That slot goes to FREE" (R162, R50). -/
def State.acceptRecord (s : State) : State :=
  if s.ring.records.length < 4 then
    match s.ring.closing with
    | n :: rest =>
      (s.modRing (fun r => { r with records := r.records ++ [(s.slot n).record], closing := rest })).modSlot n
        (fun _ => Slot.blank)
    | [] => s
  else s

/-- A slot's entry to CLOSING (R49): the incident slot and role of every member's context become none, the
slot joins the end of the Ring Writer's list, and its record is accepted if there is room (R162). -/
def State.closeSlot (s : State) (n : SlotId) : State :=
  let t := (s.slot n).members.foldl
    (fun t m => t.modDist m.district (fun x =>
      if x.incidentSlot = some n then { x with incidentSlot := .none, role := .none } else x)) s
  ((t.modSlot n (fun x => { x with state := .closing })).modRing
    (fun r => { r with closing := r.closing ++ [n] })).acceptRecord

/-- Whether every member of slot n is in a settled state (R49). -/
def State.allSettled (s : State) (n : SlotId) : Bool :=
  (s.slot n).members.all (fun m => (s.dist m.district).state.settled)

/-- Whether a member with the role of its entry shuts its slot's suspect gate (R46). -/
def State.shutsGate (s : State) (m : Member) : Bool :=
  let x := s.dist m.district
  let restarting := x.state == .ramping || x.state == .proving || (x.state == .queued && x.mark)
  match m.role with
  | .follower | .flip => restarting || x.state == .holdoff || x.state == .reversing
  | .suspect => restarting
  | .none => false

/-- The suspect gate of slot n is open (R46). -/
def State.gateOpen (s : State) (n : SlotId) : Bool :=
  !(s.slot n).members.any s.shutsGate

/-- The first member in slot n's suspect order that is in GATED (R47). -/
def State.firstGated (s : State) (n : SlotId) : Option DistrictId :=
  (s.slot n).suspects.find? (fun d => (s.dist d).state == .gated)

/-- The claim of a release at d's context: "It goes to QUEUED with the recovery mark on and is inserted
into the restart queue by its priority" (R47), unless its check fails (R21). -/
def State.releaseSuspect (s : State) (d : DistrictId) : State :=
  if s.checkFails d then s.checkError d else s.enterQueued d true

/-- What the Incident Unit does on a notice from a member of slot n (R46, R47, R49): a RECOVERING slot with
every member settled goes to CLOSING; otherwise, while its gate is open, the first GATED suspect is
released. A release is itself a notice, so the slot is looked at again; the bound is the number of
districts. -/
def settleSlot : Nat → SlotId → State → State
  | 0, _, s => s
  | fuel + 1, n, s =>
    if (s.slot n).state ≠ .recovering then s
    else if s.allSettled n then s.closeSlot n
    else if s.gateOpen n then
      match s.firstGated n with
      | some d => settleSlot fuel n (s.releaseSuspect d)
      | .none => s
    else s

/-- The notice that R10 gives: "Whenever a member of an open incident changes state, … the store gives the
Incident Unit a notice of the new state." `before` is the state before the claim at d. -/
def State.notify (before : State) (d : DistrictId) (after : State) : State :=
  if (before.dist d).state = (after.dist d).state then after
  else
    match (after.dist d).incidentSlot with
    | some n => settleSlot 33 n after
    | .none => after

/-! ### The dispatcher (R68 to R72, R75, R76) -/

/-- A queued district is admissible (R69). -/
def State.admissible (s : State) (d : DistrictId) : Bool :=
  let x := s.dist d
  let f := s.feed x.feed
  !s.hold && f.state == .up && decide (f.engaged < f.concurrencyRamps)
    && decide (f.stress + x.weight ≤ f.ceilingUnits)

/-- The lowest-numbered IDLE engine (R70). -/
def State.idleEngine (s : State) : Option EngineId :=
  (indices 4).find? (fun e => (s.engine e).district == .none)

/-- The duty of step i of n: floor(16 × i / n) sixteenths (R75). -/
def stepDuty (i n : Nat) : Nat := 16 * i / n

/-- Engine e commands step i for district d (R76, R78): the reading is stale, the commanded level takes the
step's duty, and the step timer starts for one interval. -/
def State.commandStep (s : State) (e : EngineId) (d : DistrictId) (i : Nat) : State :=
  (s.modEngine e (fun x =>
      { x with index := i, stalls := 0, reading := .none, timer := some (x.interval * 1000) })).modDist d
    (fun x => { x with level := stepDuty i (s.engine e).steps, polled := false })

/-- The ramp of d on engine e completes (R76, R78): FULL, PROVING, the attempt counted if the mark is on,
the engine freed. -/
def State.completeRamp (s : State) (e : EngineId) (d : DistrictId) : State :=
  ((s.enter d .proving).countAttempt d).freeEngine e

/-- The energise history with d appended; "The oldest district in the history is dropped when the history
already holds four" (R71, R100). -/
def appendHistory (h : List DistrictId) (d : DistrictId) : List DistrictId :=
  if h.length < 4 then h ++ [d] else h.drop 1 ++ [d]

/-- Steps 1 to 5 of a grant of engine e to d (R71): out of the queue, into the engine, RAMPING with the mark
kept, the feed's account, count and history. -/
def State.takeEngine (s : State) (e : EngineId) (d : DistrictId) : State :=
  let x := s.dist d
  ((({ s with queue := s.queue.erase d } : State).modEngine e (fun _ =>
    { district := some d, feed := x.feed, steps := x.steps, interval := x.interval, ceiling := x.ceiling,
      index := 1, stalls := 0, timer := .none, reading := .none })).enter d .ramping).modFeed x.feed (fun f =>
    { f with engaged := f.engaged + 1, stress := f.stress + x.weight, history := appendHistory f.history d })

/-- A grant (R71), with step 1 commanded when the ramp has more than one step (R76). -/
def State.beginRamp (s : State) (e : EngineId) (d : DistrictId) : State :=
  if (s.dist d).steps ≤ 1 then s.takeEngine e d else (s.takeEngine e d).commandStep e d 1

/-- The grant of engine e to d as one claim at d's context (R71, R72, R76): a check error takes its place;
"With n equal to 1, the ramp completes at the grant". -/
def State.grant (s : State) (e : EngineId) (d : DistrictId) : State :=
  if s.checkFails d then s.notify d (s.checkError d)
  else
    let t := s.notify d (s.beginRamp e d)
    if (s.dist d).steps ≤ 1 then t.notify d (t.completeRamp e d) else t

/-- A scan (R70): the first admissible entry is granted to the lowest-numbered IDLE engine, and the scan
begins again, "until no engine is IDLE or no entry is admissible". -/
def scanLoop : Nat → State → State
  | 0, s => s
  | fuel + 1, s =>
    match s.idleEngine, s.queue.find? s.admissible with
    | some e, some d => scanLoop fuel (s.grant e d)
    | _, _ => s

/-- The scan of one occasion (R68). Each grant takes an entry out of the queue and a release puts a GATED
district in at most once, so the bound of twice the districts is never reached. -/
def State.scan (s : State) : State := scanLoop 65 s

/-- Whether a claim freed an engine. -/
def State.freedSince (before after : State) : Bool :=
  (indices 4).any (fun e => (before.engine e).district.isSome && (after.engine e).district.isNone)

/-- The scan of the occasions a claim brings (R68): a district inserted into or removed from the queue, or
an engine freed. -/
def State.rescan (before after : State) : State :=
  if after.queue ≠ before.queue ∨ before.freedSince after then after.scan else after

/-- The end of a claim at d: the notice, and then the scan (log 6). -/
def State.finish (before : State) (d : DistrictId) (after : State) : State :=
  before.rescan (before.notify d after)

/-- A check error taken at d in place of an event (R21, R22). -/
def State.raiseCheck (s : State) (d : DistrictId) : State := s.finish d (s.checkError d)

/-- A claim with effect f taken at d's context: its reading of the context is checked, and a check error
takes its place (R10, R21, R22). -/
def State.claim (s : State) (d : DistrictId) (f : State → State) : State :=
  if s.checkFails d then s.raiseCheck d else s.finish d (f s)

/-- A claim with its notice, the scan it occasions left to the end of its event (R116; log 6). -/
def State.claimUnscanned (s : State) (d : DistrictId) (f : State → State) : State :=
  s.notify d (if s.checkFails d then s.checkError d else f s)

/-! ### While RESET is held (R134) -/

/-- An event taken unless RESET is held; while it is held the part takes nothing (R134, log 13). -/
def State.running (s : State) (f : State → State) : State :=
  if s.inReset then s else f s

end Sys2Proof.Machine
end

