-- ==== Sys2Proof/Machine/Feeds.lean ====
section
/-! DEFINITION. The Feed Monitor and the HOLD input: booster-OK lines, sag notices, settle and drain
expiries, and the claims that take a RAMPING or REVERSING district back to the queue (chapter 5; R60,
R83, R157, R158). -/

namespace Sys2Proof.Machine

open Sys2Proof

/-- What a HOLD assert or a feed leaving UP does at d (R60, R66, R83): a RAMPING district is aborted with no
attempt counted and a REVERSING one leaves its flip; both return to the queue ahead of their priority. -/
def State.returnEffect (s : State) (d : DistrictId) : State :=
  match (s.dist d).state with
  | .ramping => (s.freeEngineOf d).returnToQueue d
  | .reversing => (s.modDist d (fun x => { x with mark := true })).returnToQueue d
  | .off | .queued | .proving | .live | .tripped | .holdoff | .gated | .stopped | .lockout | .locked
  | .unreachable | .checkHold => s

/-- The claim of a return at d's context, given to a district in RAMPING or REVERSING. -/
def State.returnClaim (d : DistrictId) (s : State) : State :=
  if (s.dist d).state = .ramping ∨ (s.dist d).state = .reversing then s.claim d (fun t => t.returnEffect d)
  else s

/-- The districts a HOLD assert gives claims to: every one in RAMPING or REVERSING (R157). -/
def State.heldBack (s : State) : List DistrictId :=
  (indices 32).filter (fun d => (s.dist d).state == .ramping || (s.dist d).state == .reversing)

/-- The districts feed k's leaving UP gives claims to: RAMPING ones "whose engine took the feed at grant"
and REVERSING ones "whose context names the feed" (R94). -/
def State.onFeedLeaving (s : State) (k : FeedId) : List DistrictId :=
  (indices 32).filter (fun d =>
    ((s.dist d).state == .ramping
      && (indices 4).any (fun e => (s.engine e).district == some d && (s.engine e).feed == k))
    || ((s.dist d).state == .reversing && (s.dist d).feed == k))

/-- Feed k leaves UP, already in its new state (R94): each affected district takes its own claim, in a free
order (log 5). -/
def State.feedLeavesUp (s : State) (k : FeedId) : State :=
  s.inFreeOrder (s.onFeedLeaving k) State.returnClaim

/-- Feed k in SETTLING with its settle timer started for the settle time in force (R92, R93). -/
def State.startSettling (s : State) (k : FeedId) : State :=
  s.modFeed k (fun f =>
    { f with state := .settling, settleTimer := some f.settleMicros, settleRestarted := false })

/-- A SETTLING feed's settle timer started again "from its beginning with the settle time in force" (R93). -/
def State.restartSettling (s : State) (k : FeedId) : State :=
  (s.startSettling k).modFeed k (fun f => { f with settleRestarted := true })

/-- A sag notice for feed k (R93). -/
def State.sagNotice (k : FeedId) (s : State) : State :=
  match (s.feed k).state with
  | .up => (s.startSettling k).feedLeavesUp k
  | .settling => s.restartSettling k
  | .down => s

/-- The level of booster-OK line k as the part takes it. -/
def State.line (s : State) (k : FeedId) : Bool := s.lines[k]

/-- Line k goes low (R91): the feed goes to DOWN with its settle timer stopped, and leaves UP if it was
UP. A line that is low cannot go low (log 3). -/
def State.lineLow (k : FeedId) (s : State) : State :=
  if s.line k then
    let t := ({ s with lines := put s.lines k false }).modFeed k
      (fun f => { f with state := .down, settleTimer := .none })
    if (s.feed k).state = .up then t.feedLeavesUp k else t
  else s

/-- Line k goes high (R92): a DOWN feed goes to SETTLING. A line that is high cannot go high (log 3). -/
def State.lineHigh (k : FeedId) (s : State) : State :=
  if s.line k then s
  else
    let t := { s with lines := put s.lines k true }
    if (s.feed k).state = .down then t.startSettling k else t

/-- Settle expiry of feed k (R92): UP, the timer stopped, an occasion for a scan. A timer that does not run
does not expire (log 2); nor does one that a sag notice taken first has just started again: "SETTLING, with the
timer started again; the expiry does not happen" (R95). -/
def State.settleExpires (k : FeedId) (s : State) : State :=
  if (s.feed k).state = .settling ∧ (s.feed k).settleTimer.isSome then
    if (s.feed k).settleRestarted then s.modFeed k (fun f => { f with settleRestarted := false })
    else (s.modFeed k (fun f => { f with state := .up, settleTimer := .none })).scan
  else s

/-- Every feed's stress account lowered by 1; "an account already at 0 stays at 0" (R97). -/
def State.drainAll (s : State) : State :=
  { s with feeds := tabulate 8 (fun k => { s.feed k with stress := (s.feed k).stress - 1 }) }

/-- Drain expiry (R97): the accounts fall, the timer starts again with the period in force, and an expiry at
which some account falls is an occasion for a scan. -/
def State.drainExpires (s : State) : State :=
  let t := { s.drainAll with drainTimer := some s.control.drainMicros }
  if (indices 8).any (fun k => decide (0 < (s.feed k).stress)) then t.scan else t

/-- HOLD asserted (R157): the level is taken, and every RAMPING and REVERSING district takes its claim, in
a free order (log 5). An assert that finds the level asserted cannot arise (log 3). -/
def State.assertHold (s : State) : State :=
  if s.hold then s
  else ({ s with hold := true }).inFreeOrder s.heldBack State.returnClaim

/-- HOLD released (R158): an occasion for a scan. A release that finds it released cannot arise (log 3). -/
def State.releaseHold (s : State) : State :=
  if s.hold then ({ s with hold := false }).scan else s

/-! ### The commands -/

/-- HOLD_ASSERT (R157). -/
def execHoldAssert (s : State) : Host.Outcome State Fault Refusal :=
  .next (s.running State.assertHold)

/-- HOLD_RELEASE (R158). -/
def execHoldRelease (s : State) : Host.Outcome State Fault Refusal :=
  .next (s.running State.releaseHold)

/-- BOOSTER_LINE_LOW (R91). -/
def execBoosterLineLow (k : FeedId) (s : State) : Host.Outcome State Fault Refusal :=
  .next (s.running (State.lineLow k))

/-- BOOSTER_LINE_HIGH (R92). -/
def execBoosterLineHigh (k : FeedId) (s : State) : Host.Outcome State Fault Refusal :=
  .next (s.running (State.lineHigh k))

/-- SETTLE_EXPIRY (R92). -/
def execSettleExpiry (k : FeedId) (s : State) : Host.Outcome State Fault Refusal :=
  .next (s.running (State.settleExpires k))

/-- DRAIN_EXPIRY (R97). -/
def execDrainExpiry (s : State) : Host.Outcome State Fault Refusal :=
  .next (s.running State.drainExpires)

end Sys2Proof.Machine
end

