-- ==== Sys2Proof/Machine/Incidents.lean ====
section
/-! DEFINITION. The Incident Unit: taking cuts, joining and opening slots, solitary cuts, re-trips,
gathering close with its attribution and roles, and flips (chapters 2 and 3). -/

namespace Sys2Proof.Machine

open Sys2Proof

/-- What a cut carries (R31, R120). -/
structure Cut where
  cause : Cause
  stamp : Stamp
  saturated : Bool
  deriving DecidableEq, Repr

/-! ### Adjacency (R55) -/

/-- Two districts are adjacent when some valid entry of the table names their pair; "A district is never
adjacent to itself". -/
def State.adjacent (s : State) (x y : DistrictId) : Bool :=
  x != y && (indices 48).any (fun j => adjacentValid s.adjacency[j] && namesPair s.adjacency[j] x.val y.val)

/-! ### The flip (R56, R57) -/

/-- Flips are turned into ramps while HOLD is asserted or d's feed is not UP (R57). -/
def State.flipBarred (s : State) (d : DistrictId) : Bool :=
  s.hold || (s.feed (s.dist d).feed).state != .up

/-- The entry to REVERSING (R56): polarity toggled, FLIPPED latched, level 16, the mark on, the role kept. -/
def State.enterReversing (s : State) (d : DistrictId) : State :=
  (s.modDist d (fun x => ({ x with polarity := x.polarity.toggle } : District).latchFlipped)).enter d .reversing

/-- The flip of d (R56); where it is barred, d leaves REVERSING at once for QUEUED with the mark on (R57). -/
def State.flip (s : State) (d : DistrictId) : State :=
  if s.flipBarred d then (s.enterReversing d).returnToQueue d else s.enterReversing d

/-! ### Close states (R35, R43, R45) -/

/-- Entry to LOCKOUT (R43 case 4, R45): LOCKOUT_ENTERED latched, the intent OFF and word 0 marked, the
district added to its slot's lockout set. -/
def State.enterLockout (s : State) (d : DistrictId) : State :=
  (match (s.dist d).incidentSlot with
    | some n => s.modSlot n (fun x => { x with lockouts := addDistrict x.lockouts d })
    | .none => s)
  |>.enter d .lockout
  |>.modDist d District.latchLockout
  |>.setIntentOff d
  |>.mark (.district d 0)

/-- Cases 3 to 6 of R43, for a district whose role stands in its context. -/
def State.enterCloseState (s : State) (d : DistrictId) : State :=
  if (s.dist d).intent = .onManual then s.enter d .stopped
  else if (s.dist d).attempts = s.control.limit then s.enterLockout d
  else
    match (s.dist d).role with
    | .flip => s.flip d
    | .follower | .suspect | .none => s.enter d .holdoff

/-! ### Taking a cut (R31 to R36, R45) -/

/-- Step 1 of R32: the engine holding d is freed and the attempt counted if the mark is on. A stall abort
has freed the engine and counted already, so it does neither again. -/
def State.leaveEnergised (s : State) (d : DistrictId) : State :=
  match s.engineOf d with
  | some e => (s.countAttempt d).freeEngine e
  | .none => s

/-- The signed offset of a stamp from an anchor: the difference modulo 2^24, "read as negative when it is
2^23 or more" (R33, R40). -/
def stampOffset (stamp anchor : Stamp) : Int := (stamp - anchor).toInt

/-- The distance between two stamps on the wrapping time base (R33). -/
def stampDistance (stamp anchor : Stamp) : Nat := (stampOffset stamp anchor).natAbs

/-- Whether an entry of d with this stamp qualifies for the GATHERING incident of slot n (R33). -/
def State.qualifies (s : State) (d : DistrictId) (stamp : Stamp) (n : SlotId) : Bool :=
  (s.slot n).state == .gathering
    && decide (stampDistance stamp (s.slot n).anchor ≤ s.control.gatheringMicros)
    && (s.slot n).members.any (fun m =>
        (s.dist m.district).feed == (s.dist d).feed || s.adjacent d m.district)

/-- The incident d joins: of those that qualify the one "whose anchor stamp is earliest", two with the same
anchor "decided in favour of the lower slot number" (R33). -/
def State.joinTarget (s : State) (d : DistrictId) (stamp : Stamp) : Option SlotId :=
  ((indices 4).filter (s.qualifies d stamp)).foldl
    (fun best n =>
      match best with
      | .none => some n
      | some b =>
        if stampOffset stamp (s.slot b).anchor < stampOffset stamp (s.slot n).anchor then some n else some b)
    .none

/-- The lowest-numbered FREE slot (R34). -/
def State.freeSlot (s : State) : Option SlotId :=
  (indices 4).find? (fun n => (s.slot n).state == .free)

/-- The member entry of a new trip (R32 step 3). -/
def newMember (d : DistrictId) (c : Cut) (wasProving : Bool) : Member :=
  { district := d, cause := c.cause, stamp := c.stamp, saturated := c.saturated, wasProving := wasProving,
    withdrawn := false, role := .none }

/-- d made a member of slot n: its incident slot names the slot and its last incident id takes the slot's. -/
def State.nameSlot (s : State) (d : DistrictId) (n : SlotId) : State :=
  s.modDist d (fun x => { x with incidentSlot := some n, lastIncident := some (s.slot n).id, role := .none })

/-- Joining slot n (R33). -/
def State.join (s : State) (n : SlotId) (m : Member) : State :=
  (s.modSlot n (fun x =>
    { x with members := x.members ++ [m], anySaturated := x.anySaturated || m.saturated })).nameSlot m.district n

/-- Opening FREE slot n with its first member (R30, R34). -/
def State.openSlot (s : State) (n : SlotId) (m : Member) : State :=
  (({ s with nextId := s.nextId + 1 }).modSlot n (fun _ =>
    { Slot.blank with
      state := .gathering
      id := s.nextId
      anchor := m.stamp
      openTime := s.timeBase
      members := [m]
      timer := some s.control.gatheringMicros
      anySaturated := m.saturated })).nameSlot m.district n

/-- The missed count raised by 1, staying at 255 (R167). -/
def RingWriter.raiseMissed (r : RingWriter) : RingWriter :=
  { r with missed := min (r.missed + 1) 255 }

/-- The role a solitary cut gives: with a fault cause SUSPECT, or FLIP if reversing; with UNDERVOLTAGE
FOLLOWER (R35). -/
def solitaryRole (c : Cause) (reversing : Bool) : Role :=
  if c.isFault then (if reversing then .flip else .suspect) else .follower

/-- What a solitary cut records (R35, R167): the missed count, the solitary-loss flag, no incident, the role. -/
def State.recordSolitary (s : State) (d : DistrictId) (c : Cut) : State :=
  (s.modRing (fun r => { r.raiseMissed with solitaryLoss := true })).modDist d (fun x =>
    { x with incidentSlot := .none, lastIncident := .none, role := solitaryRole c.cause x.reversing })

/-- A solitary cut for d, already in TRIPPED (R35), which takes its close state at once; entering STOPPED or
LOCKOUT it takes none as its role. -/
def State.solitary (s : State) (d : DistrictId) (c : Cut) : State :=
  let u := (s.recordSolitary d c).enterCloseState d
  if (u.dist d).state = .stopped ∨ (u.dist d).state = .lockout then
    u.modDist d (fun x => { x with role := .none })
  else u

/-- d's entry to TRIPPED with the flag latched and the cause recorded (R6, R8, R32 step 2). -/
def State.enterTripped (s : State) (d : DistrictId) (c : Cut) : State :=
  (s.enter d .tripped).modDist d (fun x => ({ x with lastCause := some c.cause } : District).latchTripped)

/-- A new trip of d (R32). -/
def State.newTrip (s : State) (d : DistrictId) (c : Cut) : State :=
  let m := newMember d c ((s.dist d).state == .proving)
  let t := (s.leaveEnergised d).enterTripped d c
  match t.joinTarget d c.stamp with
  | some n => t.join n m
  | .none =>
    match t.freeSlot with
    | some n => t.openSlot n m
    | .none => t.solitary d c

/-- A member entry raised by a further cut of higher priority (R36). -/
def Member.raise (m : Member) (c : Cut) : Member :=
  { m with cause := c.cause, stamp := c.stamp, saturated := c.saturated }

/-- A further cut for member d of GATHERING slot n (R36). -/
def State.furtherCut (s : State) (n : SlotId) (d : DistrictId) (c : Cut) : State :=
  let t := s.modDist d District.latchTripped
  if (s.slot n).members.any (fun m => m.district == d && decide (m.cause.priority < c.cause.priority)) then
    let members := (s.slot n).members.map (fun m => if m.district = d then m.raise c else m)
    (t.modDist d (fun x => { x with lastCause := some c.cause })).modSlot n (fun x =>
      { x with members := members, anySaturated := members.any Member.saturated })
  else t

/-- A member's role in its entry and in its context (R41, R45). -/
def State.setRole (s : State) (n : SlotId) (d : DistrictId) (r : Role) : State :=
  (s.modDist d (fun x => { x with role := r })).modSlot n (fun x =>
    { x with members := x.members.map (fun m => if m.district = d then { m with role := r } else m) })

/-- Steps 1 to 3 of a re-trip (R45): the energised state left, the flag and the cause, and the role. -/
def State.becomeSuspect (s : State) (n : SlotId) (d : DistrictId) (c : Cut) : State :=
  ((((s.leaveEnergised d).modDist d (fun x =>
    ({ x with lastCause := some c.cause } : District).latchTripped)).setRole n d .suspect).modSlot n (fun x =>
    { x with suspects := x.suspects.erase d ++ [d] }))

/-- A re-trip of member d of RECOVERING slot n (R45). -/
def State.reTrip (s : State) (n : SlotId) (d : DistrictId) (c : Cut) : State :=
  let t := s.becomeSuspect n d c
  if (t.dist d).intent = .onManual then t.enter d .stopped
  else if (t.dist d).attempts = t.control.limit then t.enterLockout d
  else t.enter d .holdoff

/-- A cut offered for d, sorted by its state and membership (R31). -/
def State.takeCut (s : State) (d : DistrictId) (c : Cut) : State :=
  match s.openSlotOf d with
  | some n =>
    match (s.slot n).state with
    | .gathering =>
      match (s.dist d).state with
      | .tripped => s.furtherCut n d c
      | .ramping | .proving | .live => ((s.leaveEnergised d).enter d .tripped).furtherCut n d c
      | .off | .queued | .reversing | .holdoff | .gated | .stopped | .lockout | .locked | .unreachable
      | .checkHold => s
    | .recovering => if (s.dist d).state.energised then s.reTrip n d c else s
    | .free | .closing => s
  | .none => if (s.dist d).state.energised then s.newTrip d c else s

/-! ### Attribution (R40 to R42, R101) -/

/-- The stamp order of R40, each test deciding only when the earlier ones leave a tie: unsaturated first,
then the smaller offset from the anchor, then the higher cause priority, then the lower district. -/
def stampBefore (anchor : Stamp) (x y : Member) : Bool :=
  if x.saturated ≠ y.saturated then !x.saturated
  else if stampOffset x.stamp anchor ≠ stampOffset y.stamp anchor then
    decide (stampOffset x.stamp anchor < stampOffset y.stamp anchor)
  else if x.cause.priority ≠ y.cause.priority then decide (y.cause.priority < x.cause.priority)
  else decide (x.district < y.district)

/-- A member put into a list that is in stamp order. -/
def insertInOrder (anchor : Stamp) (x : Member) : List Member → List Member
  | [] => [x]
  | y :: rest => if stampBefore anchor x y then x :: y :: rest else y :: insertInOrder anchor x rest

/-- Members in stamp order. -/
def inStampOrder (anchor : Stamp) (l : List Member) : List Member := l.foldr (insertInOrder anchor) []

/-- The non-withdrawn members. -/
def Slot.active (x : Slot) : List Member := x.members.filter (fun m => !m.withdrawn)

/-- F: the non-withdrawn members whose cause is a fault cause (R40). -/
def Slot.faultSet (x : Slot) : List Member := x.active.filter (fun m => m.cause.isFault)

/-- The origin (R40): the first candidate in stamp order, or "the first entry of the member list" when every
member is withdrawn. -/
def Slot.originOf (x : Slot) : Option DistrictId :=
  let candidates := if x.faultSet.isEmpty then x.active else x.faultSet
  match inStampOrder x.anchor candidates with
  | m :: _ => some m.district
  | [] => x.members.head?.map Member.district

/-- The members feed k counts: non-withdrawn, UNDERVOLTAGE, their context naming the feed at close (R42). -/
def State.sagCounted (s : State) (x : Slot) (k : FeedId) : List Member :=
  x.active.filter (fun m => m.cause == .undervoltage && (s.dist m.district).feed == k)

/-- The sagged feeds (R42). -/
def State.saggedFeeds (s : State) (x : Slot) : List FeedId :=
  (indices 8).filter (fun k => decide ((s.feed k).sagMembers ≤ (s.sagCounted x k).length))

/-- The member a sagged feed blames: of its counted members that were proving, the one whose appearance
stands newest in the feed's history (R42, R101). -/
def State.blamed (s : State) (x : Slot) (k : FeedId) : Option DistrictId :=
  (s.feed k).history.reverse.find? (fun d =>
    (s.sagCounted x k).any (fun m => m.district == d && m.wasProving))

/-- The class, and the districts made SUSPECT and FLIP; every other non-withdrawn member is FOLLOWER. -/
structure Attribution where
  cls : IncidentClass
  suspects : List DistrictId
  flips : List DistrictId
  deriving DecidableEq, Repr

/-- The table of R41, its first row whose condition holds. -/
def State.attribute (s : State) (x : Slot) : Attribution :=
  if x.active.isEmpty then { cls := .undervolt, suspects := [], flips := [] }
  else
    match x.faultSet with
    | [] =>
      if (s.saggedFeeds x).isEmpty then { cls := .undervolt, suspects := [], flips := [] }
      else { cls := .feedSag, suspects := (s.saggedFeeds x).filterMap (s.blamed x), flips := [] }
    | [m] =>
      if (s.dist m.district).reversing then { cls := .reverse, suspects := [], flips := [m.district] }
      else { cls := .short, suspects := [m.district], flips := [] }
    | [m, p] =>
      let bridged := s.adjacent m.district p.district && (s.dist m.district).feed != (s.dist p.district).feed
      let rm := (s.dist m.district).reversing
      let rp := (s.dist p.district).reversing
      if bridged && rm && !rp then { cls := .reverse, suspects := [], flips := [m.district] }
      else if bridged && rp && !rm then { cls := .reverse, suspects := [], flips := [p.district] }
      else if bridged then { cls := .bridge, suspects := [m.district, p.district], flips := [] }
      else { cls := .multi, suspects := [m.district, p.district], flips := [] }
    | l => { cls := .multi, suspects := l.map Member.district, flips := [] }

/-- The role an attribution gives a member; a withdrawn member takes none (R40, R41). -/
def Attribution.role (a : Attribution) (m : Member) : Role :=
  if m.withdrawn then m.role
  else if a.flips.contains m.district then .flip
  else if a.suspects.contains m.district then .suspect
  else .follower

/-- Origin, class, roles and suspect order fixed in slot n, and each role taken into its context (R40 to
R42). -/
def State.fixRoles (s : State) (n : SlotId) : State :=
  let x := s.slot n
  let a := s.attribute x
  let members := x.members.map (fun m => { m with role := a.role m })
  let t := s.modSlot n (fun y =>
    { y with
      origin := x.originOf
      cls := some a.cls
      members := members
      suspects := (inStampOrder x.anchor (members.filter (fun m => m.role == .suspect))).map Member.district
      timer := .none })
  members.foldl (fun t m =>
    if m.withdrawn then t else t.modDist m.district (fun y => { y with role := m.role })) t

/-- A member's entry to its close state (R43): a claim at its context, whose check error takes it to
CHECK_HOLD instead (R21). A member that left TRIPPED during gathering enters no close state: it keeps its state
and takes its role. R21 counts "entry to its close state" and R10 "roles at close" among the claims; that such a
member's context is not checked at the close is the model's reading (log 8). -/
def State.enterMember (s : State) (m : Member) : State :=
  if (s.dist m.district).state ≠ .tripped then s
  else if s.checkFails m.district then s.checkError m.district
  else if m.withdrawn then s.enter m.district .off
  else s.enterCloseState m.district

/-- The roles of slot n fixed and every member's state entered "at the same close event" (R40 to R43), the
slot in RECOVERING and not yet looked at. -/
def State.enterCloseStates (s : State) (n : SlotId) : State :=
  (((s.fixRoles n).slot n).members.foldl State.enterMember (s.fixRoles n)).modSlot n
    (fun y => { y with state := .recovering })

/-- What follows once the members of slot n have entered their states, in u: the slot stays in RECOVERING or
goes to CLOSING (R44, R47), then the scan of the queue's changes, then the sag notices of a FEED_SAG incident
(R93: "after the incident has closed"). -/
def State.afterClose (before : State) (n : SlotId) (u : State) : State :=
  let v := before.rescan (settleSlot 33 n u)
  if (before.attribute (before.slot n)).cls = .feedSag then
    v.inFreeOrder (before.saggedFeeds (before.slot n)) State.sagNotice
  else v

/-- Gathering close of slot n (R38 to R44). -/
def State.closeGathering (n : SlotId) (s : State) : State :=
  s.afterClose n (s.enterCloseStates n)

/-- The round-begin notice (R37). -/
def State.roundBegin (s : State) : State :=
  { s with slots := tabulate 4 (fun n =>
      if (s.slot n).state = .gathering then { s.slot n with roundBegun := true } else s.slot n) }

/-- The round-end notice (R37, R38): each GATHERING slot whose round-begun flag is set sets its round-seen
flag, and those whose timer has expired close, in a free order (log 5; R162: "Two slots that enter CLOSING
together join in whichever order their entries are taken"). -/
def State.roundEnd (s : State) : State :=
  let t := { s with slots := tabulate 4 (fun n =>
      if (s.slot n).state = SlotState.gathering ∧ (s.slot n).roundBegun then { s.slot n with roundSeen := true }
      else s.slot n) }
  t.inFreeOrder
    ((indices 4).filter (fun n =>
      decide ((t.slot n).state = SlotState.gathering) && (t.slot n).roundSeen && (t.slot n).timer.isNone))
    State.closeGathering

/-- Expiry of slot n's gathering timer (R38): it closes the slot if its round-seen flag is set. -/
def State.gatheringExpires (n : SlotId) (s : State) : State :=
  if (s.slot n).state = .gathering ∧ (s.slot n).timer.isSome then
    let t := s.modSlot n (fun x => { x with timer := .none })
    if (s.slot n).roundSeen then t.closeGathering n else t
  else s

/-! ### The commands -/

/-- GATHERING_TIMER_EXPIRY (R38). -/
def execGatheringTimerExpiry (n : SlotId) (s : State) : Host.Outcome State Fault Refusal :=
  .next (s.running (State.gatheringExpires n))

end Sys2Proof.Machine
end

