-- ==== Sys2Proof/Machine/Link.lean ====
section
/-! DEFINITION. The Link Controller: the check byte, the POLL with its channel commands, the REPORT as read,
misses and node loss, returns, readings and cuts (chapter 6; R175). -/

namespace Sys2Proof.Machine

open Sys2Proof

/-! ### The check byte (R105) -/

/-- One division step by x^8 + x^2 + x + 1. -/
def crcShift (r : Byte) : Byte :=
  if r.getLsbD 7 then (r <<< 1) ^^^ 0x07 else r <<< 1

/-- One byte fed in, most significant bit first. -/
def crcByte (r b : Byte) : Byte :=
  Nat.repeat crcShift 8 (r ^^^ b)

/-- The CRC-8 of a frame's preceding bytes: "The check register starts at 0xFF" and is taken "without
inversion". -/
def crc8 (l : List Byte) : Byte :=
  l.foldl crcByte 0xFF

/-! ### Mapping (R107) -/

/-- Whether district d is mapped to node k, channel c: its node and channel fields name them "and its
context-invalid flag is clear". -/
def State.mappedTo (s : State) (k : NodeId) (c : ChannelId) (d : DistrictId) : Bool :=
  !(s.dist d).invalid && (s.dist d).node == some k && (s.dist d).channel == c

/-- The district mapped to node k, channel c; "at most one district is mapped to each channel". -/
def State.mapped (s : State) (k : NodeId) (c : ChannelId) : Option DistrictId :=
  (indices 32).find? (s.mappedTo k c)

/-! ### The POLL (R110, R111) -/

/-- HOLD_OFF at a polarity. -/
def holdOffAt (p : Polarity) : ChannelCommand := { mode := .holdOff, duty := 0, polarity := p }

/-- The district's own command (R110 case 4): HOLD_OFF outside the energised states; in them FULL at level
16 and STEP at a level of 1 to 15. Level 0 there, which the spec does not give, is HOLD_OFF (log 27). -/
def District.command (x : District) : ChannelCommand :=
  if x.state.energised then
    if x.level = 16 then { mode := .full, duty := 0, polarity := x.polarity }
    else if x.level = 0 then holdOffAt x.polarity
    else { mode := .step, duty := x.level, polarity := x.polarity }
  else holdOffAt x.polarity

/-- The release hold: the channel's entry "shows output CUT or the new-cut flag set" (R110 case 3, R111). -/
def ChannelEntry.held (e : ChannelEntry) : Bool := e.output == .cut || e.newCut

/-- Channel c's entry of node k. -/
def State.channel (s : State) (k : NodeId) (c : ChannelId) : ChannelEntry := (s.node k).channels[c]

/-- Whether the command of channel c of node k is the district's own (R110, neither case 1 nor case 3). For a
REVERSING district whose channel shows output CUT with the new-cut flag clear, the last row of R59 has the next
POLL repeat the flip command, and R110 case 3, R111 and R175 hold the channel at HOLD_OFF; that the release hold
prevails is the model's reading (log 34). -/
def State.sendsOwn (s : State) (k : NodeId) (c : ChannelId) : Bool :=
  (s.node k).state == .present && !(s.channel k c).held

/-- The command formed for channel c of node k, before the check of the context it reads (R110). -/
def State.commandFor (s : State) (k : NodeId) (c : ChannelId) : ChannelCommand :=
  match s.mapped k c with
  | .none => holdOffAt .a
  | some d => if s.sendsOwn k c then (s.dist d).command else holdOffAt (s.dist d).polarity

/-- What forming the command of channel c of node k does to the state: the context read is checked (R21,
R110), and the district is noted as polled with its own command or not (log 15). -/
def State.pollChannel (k : NodeId) (s : State) (c : ChannelId) : State :=
  match s.mapped k c with
  | .none => s
  | some d =>
    if s.checkFails d then (s.raiseCheck d).modDist d (fun x => { x with polled := false })
    else s.modDist d (fun x => { x with polled := s.sendsOwn k c })

/-- The command sent in channel c once the check is taken: "The district goes to CHECK_HOLD, and the channel
is commanded HOLD_OFF in this POLL", at the district's polarity (log 17). -/
def State.checkedCommand (s : State) (k : NodeId) (c : ChannelId) : ChannelCommand :=
  match s.mapped k c with
  | .none => holdOffAt .a
  | some d => if s.checkFails d then holdOffAt (s.dist d).polarity else s.commandFor k c

/-- The state in which the command of channel c is formed: the channels are formed in order. -/
def State.beforeChannel (s : State) (k : NodeId) (c : ChannelId) : State :=
  ((indices 4).take c.val).foldl (State.pollChannel k) s

/-- The POLL for node k formed and sent (R108 steps 1 and 2, R110), the time base sampled into it. -/
def State.formPoll (s : State) (k : NodeId) : State :=
  { (indices 4).foldl (State.pollChannel k) s with
    exchange := some
      { node := k
        timeBase := s.timeBase
        commands := tabulate 4 (fun c => (s.beforeChannel k c).checkedCommand k c) } }

/-- The next exchange begins (R108), with a round-begin notice when it is that of address 1 (R109). A POLL
while an exchange is in progress cannot arise (log 3). -/
def State.beginExchange (s : State) : State :=
  match s.exchange with
  | some _ => s
  | .none => (if s.nextNode = 0 then s.roundBegin else s).formPoll s.nextNode

/-- A channel command byte (R175), with bit c of the time base in bit 7. -/
def ChannelCommand.byte (x : ChannelCommand) (timeBit : Bool) : Byte :=
  BitVec.ofNat 8 (place 0 2 x.mode.code + place 2 4 x.duty + place 6 1 x.polarity.code
    + place 7 1 (ofMark timeBit))

/-- The eight bytes of the POLL of an exchange, in the order sent (R110, R175). -/
def Exchange.frame (x : Exchange) : List Byte :=
  let t := x.timeBase.toNat
  let preceding : List Byte :=
    [BitVec.ofNat 8 (place 0 4 (x.node.val + 1) + place 4 4 (t / 2 ^ 20)), BitVec.ofNat 8 (t / 2 ^ 12),
      BitVec.ofNat 8 (t / 2 ^ 4)]
    ++ (indices 4).map (fun c => x.commands[c].byte (x.timeBase.getLsbD c.val))
  preceding ++ [crc8 preceding]

/-! ### The REPORT as read (R113, R175) -/

/-- Byte i of the REPORT. -/
def reportByte (r : Report) (i : Nat) : Byte := r.bytes.toList.getD i 0

/-- What a REPORT says of one channel; the duty is not read. -/
structure ChannelReport where
  output : Output
  cause : Cause
  newCut : Bool
  polarity : Polarity
  current : Byte
  age : Nat
  deriving DecidableEq, Repr

/-- The part of channel c, five bytes from byte 2 + 5 × c. -/
def reportChannel (r : Report) (c : ChannelId) : ChannelReport :=
  let b := (reportByte r (2 + 5 * c.val)).toNat
  { output := outputOfCode (b % 4)
    cause := causeOfCode (b / 4 % 8)
    newCut := (reportByte r (2 + 5 * c.val)).getLsbD 5
    polarity := if (reportByte r (2 + 5 * c.val)).getLsbD 6 then .b else .a
    current := reportByte r (4 + 5 * c.val)
    age := (reportByte r (5 + 5 * c.val)).toNat + 256 * (reportByte r (6 + 5 * c.val)).toNat }

/-- The RESTARTED flag of the node status byte. -/
def reportRestarted (r : Report) : Bool := (reportByte r 1).getLsbD 0

/-- A good REPORT from node k (R113): "every byte had a valid stop bit, the CRC passes and the address byte
equals k". -/
def goodReport (r : Report) (k : NodeId) : Bool :=
  r.stopBitsValid && crc8 (r.bytes.toList.take 22) == reportByte r 22
    && reportByte r 0 == BitVec.ofNat 8 (k.val + 1)

/-- The cut a channel's part offers (R120): "The POLL's time base minus the channel's age", saturated at age
65535. -/
def ChannelReport.cut (x : ChannelReport) (timeBase : Stamp) : Cut :=
  { cause := x.cause, stamp := timeBase - BitVec.ofNat 24 x.age, saturated := x.age == 65535 }

/-! ### Loss and misses (R114, R115, R118) -/

/-- The effect of a loss claim at d (R115). -/
def State.loseDistrict (s : State) (d : DistrictId) : State :=
  match (s.dist d).state with
  | .unreachable | .locked | .checkHold => s
  | .off | .queued | .ramping | .proving | .live | .reversing | .tripped | .holdoff | .gated | .stopped
  | .lockout => (s.depart d).enter d .unreachable

/-- A loss claim at d's context. -/
def State.lossClaim (d : DistrictId) (s : State) : State :=
  s.claim d (fun t => t.loseDistrict d)

/-- The districts mapped to node k. -/
def State.mappedToNode (s : State) (k : NodeId) : List DistrictId :=
  (indices 32).filter (fun d => !(s.dist d).invalid && (s.dist d).node == some k)

/-- Node k goes to LOST (R115); the loss claims are taken in a free order (log 5). -/
def State.loseNode (s : State) (k : NodeId) : State :=
  let t := s.modNode k (fun x => { x with state := .lost })
  t.inFreeOrder (t.mappedToNode k) State.lossClaim

/-- An exchange with node k that ends in a miss (R114). -/
def State.missNode (s : State) (k : NodeId) : State :=
  match (s.node k).state with
  | .absent => s.modNode k (fun x => { x with misses := min (x.misses + 1) 3 })
  | .present =>
    if (s.node k).misses < 2 then s.modNode k (fun x => { x with misses := x.misses + 1 })
    else (s.modNode k (fun x => { x with misses := 3 })).loseNode k
  | .lost => s.modNode k (fun x => { x with misses := 3 })

/-- A good REPORT from node k with RESTARTED set (R118). -/
def State.restartedNode (s : State) (k : NodeId) : State :=
  let t := s.modNode k (fun x => { x with restarted := true, misses := 3 })
  if (s.node k).state = .present then t.loseNode k else t

/-! ### A good REPORT (R116, R117, R119, R120) -/

/-- The effect of a return claim at d (R117). -/
def State.returnFromLoss (s : State) (d : DistrictId) : State :=
  if (s.dist d).intent.energising then s.enterQueued d false else s.enter d .off

/-- The return claim of channel c of node k, given to the district mapped there if it is UNREACHABLE. The scan
it occasions waits for the end of the REPORT (R116; log 6). -/
def State.returnClaimAt (k : NodeId) (s : State) (c : ChannelId) : State :=
  match s.mapped k c with
  | some d =>
    if (s.dist d).state = .unreachable then s.claimUnscanned d (fun t => t.returnFromLoss d) else s
  | .none => s

/-- The effect of a channel's readings at d (R119): the current; the fresh reading of a RAMPING district's
engine; the confirmation of a REVERSING one (R58, R59). -/
def State.takeReadings (s : State) (d : DistrictId) (x : ChannelReport) : State :=
  let t := s.modDist d (fun y => { y with current := x.current })
  if (s.dist d).polled then
    match (s.dist d).state with
    | .ramping =>
      match s.engineOf d with
      | some e => t.modEngine e (fun y => { y with reading := some x.current })
      | .none => t
    | .reversing =>
      if x.output = .on ∧ x.polarity = (s.dist d).polarity ∧ x.newCut = false then t.enter d .proving else t
    | .off | .queued | .proving | .live | .tripped | .holdoff | .gated | .stopped | .lockout | .locked
    | .unreachable | .checkHold => t
  else t

/-- The readings of channel c and then its cut, given to the district mapped to it (R116 step 4, R119,
R120), each as one `claim`. -/
def State.takeChannel (claim : State → DistrictId → (State → State) → State) (k : NodeId) (r : Report)
    (timeBase : Stamp) (s : State) (c : ChannelId) : State :=
  match s.mapped k c with
  | .none => s
  | some d =>
    let x := reportChannel r c
    let t := claim s d (fun u => u.takeReadings d x)
    if x.newCut then claim t d (fun u => u.takeCut d (x.cut timeBase)) else t

/-- Every channel's output state and new-cut flag stored (R116 step 3). -/
def State.storeChannels (s : State) (k : NodeId) (r : Report) : State :=
  s.modNode k (fun x =>
    { x with channels := tabulate 4 (fun c =>
        { output := (reportChannel r c).output, newCut := (reportChannel r c).newCut }) })

/-- Steps 2 to 4 of R116 for a node that has come back: the return claims, the channels, their readings and
cuts, and only then the scan, since the districts step 2 moved are "UNREACHABLE or just QUEUED, and not
energised, so a cut it shows changes nothing in them" (log 6). -/
def State.returnNode (s : State) (k : NodeId) (r : Report) (timeBase : Stamp) : State :=
  s.rescan ((indices 4).foldl (State.takeChannel State.claimUnscanned k r timeBase)
    (((indices 4).foldl (State.returnClaimAt k) s).storeChannels k r))

/-- A good REPORT from node k with RESTARTED clear (R116). -/
def State.reportNode (s : State) (k : NodeId) (r : Report) (timeBase : Stamp) : State :=
  let t := s.modNode k (fun x => { x with misses := 0, restarted := false, state := .present })
  if (s.node k).state = .present then
    (indices 4).foldl (State.takeChannel State.claim k r timeBase) (t.storeChannels k r)
  else t.returnNode k r timeBase

/-! ### The end of an exchange (R108, R109) -/

/-- The next address, in ascending order, 8 being followed by 1. -/
def nextAddress (k : NodeId) : NodeId := k + 1

/-- The exchange in progress ends with outcome `f` at its node; after that of address 8 comes the round-end
notice, "after the Incident Unit has taken every cut that exchange offered". An outcome with no exchange in
progress cannot arise (log 3). -/
def State.endExchange (f : Exchange → State → State) (s : State) : State :=
  match s.exchange with
  | .none => s
  | some x =>
    let t := f x { s with exchange := .none, nextNode := nextAddress x.node }
    if x.node = 7 then t.roundEnd else t

/-- The outcome of a complete REPORT (R113). -/
def State.judgeReport (r : Report) (x : Exchange) (s : State) : State :=
  if goodReport r x.node then
    if reportRestarted r then s.restartedNode x.node else s.reportNode x.node r x.timeBase
  else s.missNode x.node

/-! ### The commands -/

/-- POLL (R108, R110). -/
def execPoll (s : State) : Host.Outcome State Fault Refusal :=
  .next (s.running State.beginExchange)

/-- REPORT (R113, R116). -/
def execReport (r : Report) (s : State) : Host.Outcome State Fault Refusal :=
  .next (s.running (State.endExchange (State.judgeReport r)))

/-- MISS_TIMEOUT (R113, R114). -/
def execMissTimeout (s : State) : Host.Outcome State Fault Refusal :=
  .next (s.running (State.endExchange (fun x t => t.missNode x.node)))

/-- MISS_GAP (R113, R114). -/
def execMissGap (s : State) : Host.Outcome State Fault Refusal :=
  .next (s.running (State.endExchange (fun x t => t.missNode x.node)))

end Sys2Proof.Machine
end

