-- ==== Sys2Proof/Machine/Timers.lean ====
section
/-! DEFINITION. What the expiries of the districts' and the engines' timers do (R18, R20, R78 to R80, R87). -/

namespace Sys2Proof.Machine

open Sys2Proof

/-- The effect of a hold-off expiry (R18, R35): a SUSPECT member goes to GATED; a FOLLOWER, or a district
whose cut was solitary, goes to QUEUED with the recovery mark on. -/
def State.leaveHoldoff (s : State) (d : DistrictId) : State :=
  if (s.dist d).incidentSlot.isSome ∧ (s.dist d).role = .suspect then s.enter d .gated
  else s.enterQueued d true

/-- Expiry of d's hold-off timer. A timer that does not run does not expire (log 2). -/
def State.holdoffExpires (d : DistrictId) (s : State) : State :=
  if (s.dist d).state = .holdoff ∧ (s.dist d).holdoffTimer.isSome then
    s.claim d (fun t => t.leaveHoldoff d)
  else s

/-- RESTORED latched, and a member of an open incident added to its restored set (R48, R87; log 29). -/
def State.restore (s : State) (d : DistrictId) : State :=
  let t := s.modDist d District.latchRestored
  match s.openSlotOf d with
  | some n => t.modSlot n (fun x => { x with restored := addDistrict x.restored d })
  | .none => t

/-- The effect of a proving expiry (R87). -/
def State.becomeLive (s : State) (d : DistrictId) : State :=
  (if (s.dist d).mark then s.restore d else s).enter d .live

/-- Expiry of d's proving timer. -/
def State.provingExpires (d : DistrictId) (s : State) : State :=
  if (s.dist d).state = .proving ∧ (s.dist d).provingTimer.isSome then
    s.claim d (fun t => t.becomeLive d)
  else s

/-- Expiry of d's quiet timer (R20): the attempt count becomes 0, and the timer stays stopped. -/
def State.quietExpires (d : DistrictId) (s : State) : State :=
  if (s.dist d).state = .live ∧ (s.dist d).quietTimer.isSome then
    s.claim d (fun t => t.modDist d (fun x => { x with attempts := 0, quietTimer := .none }))
  else s

/-- The cut a stall abort takes: "Its stamp is the time base at this moment, its saturated flag is clear"
(R80). -/
def State.stallCut (s : State) : Cut := { cause := .stall, stamp := s.timeBase, saturated := false }

/-- The effect of a stall abort of engine e at d, in the order of R80. -/
def State.stallAbort (s : State) (e : EngineId) (d : DistrictId) : State :=
  let t := ((s.modDist d District.latchStalled).countAttempt d).freeEngine e
  t.takeCut d t.stallCut

/-- A fresh reading "at or below the engine's ceiling" exists (R78). -/
def Engine.passes (x : Engine) : Bool :=
  match x.reading with
  | some r => decide (r.toNat ≤ x.ceiling)
  | .none => false

/-- Expiry of engine e's step timer (R78 to R80). -/
def State.stepExpires (e : EngineId) (s : State) : State :=
  let x := s.engine e
  match x.district, x.timer with
  | some d, some _ =>
    if x.passes then
      if x.index + 1 < x.steps then s.commandStep e d (x.index + 1)
      else s.claim d (fun t => t.completeRamp e d)
    else if x.stalls < 4 then
      s.modEngine e (fun y => { y with stalls := y.stalls + 1, timer := some (y.interval * 1000) })
    else s.claim d (fun t => t.stallAbort e d)
  | _, _ => s

/-! ### The commands -/

/-- HOLDOFF_EXPIRY (R18). -/
def execHoldoffExpiry (d : DistrictId) (s : State) : Host.Outcome State Fault Refusal :=
  .next (s.running (State.holdoffExpires d))

/-- PROVING_EXPIRY (R87). -/
def execProvingExpiry (d : DistrictId) (s : State) : Host.Outcome State Fault Refusal :=
  .next (s.running (State.provingExpires d))

/-- QUIET_EXPIRY (R20). -/
def execQuietExpiry (d : DistrictId) (s : State) : Host.Outcome State Fault Refusal :=
  .next (s.running (State.quietExpires d))

/-- STEP_TIMER_EXPIRY (R78 to R80). -/
def execStepTimerExpiry (e : EngineId) (s : State) : Host.Outcome State Fault Refusal :=
  .next (s.running (State.stepExpires e))

end Sys2Proof.Machine
end

