-- ==== Sys2Proof/Machine/HostWrites.lean ====
section
/-! DEFINITION. Host writes to intent words as they are taken at the memory face: the filters (R136 to R143,
R54) and the claims that follow (R3, R11 to R16, R19, R23, R153 to R155). -/

namespace Sys2Proof.Machine

open Sys2Proof

/-- One field of a word clamped to its range (R137). -/
def clampField (w : Word) (lo len low high : Nat) : Word :=
  setField w lo len (clamp low high (field w lo len))

/-! ### District word 0 (R11 to R16, R138) -/

/-- Whether the node district d is mapped to is PRESENT. -/
def State.nodePresent (s : State) (d : DistrictId) : Bool :=
  match (s.dist d).node with
  | some k => (s.node k).state == .present
  | .none => false

/-- A host-ordered start (R11, R12): QUEUED with the recovery mark off, or UNREACHABLE, by the mapped node's
state. -/
def State.start (s : State) (d : DistrictId) : State :=
  if s.nodePresent d then s.enterQueued d false else s.enter d .unreachable

/-- The withdrawn mark of d's member entry (R12, R15). -/
def State.setWithdrawn (s : State) (d : DistrictId) (b : Bool) : State :=
  match (s.dist d).incidentSlot with
  | some n => s.modSlot n (fun x =>
      { x with members := x.members.map (fun m => if m.district = d then { m with withdrawn := b } else m) })
  | .none => s

/-- The move a taken host intent write makes (R11 to R16); the intent itself is already in the copy. -/
def State.intentMove (s : State) (d : DistrictId) (i : Intent) : State :=
  if i.energising then
    match (s.dist d).state with
    | .off => s.start d
    | .stopped => if i = .on then s.start d else s
    | .tripped => s.setWithdrawn d false
    | .queued | .ramping | .proving | .live | .reversing | .holdoff | .gated | .lockout | .locked
    | .unreachable | .checkHold => s
  else
    match (s.dist d).state with
    | .queued | .ramping | .proving | .live | .reversing | .holdoff | .gated | .stopped =>
      (s.depart d).enter d .off
    | .tripped => s.setWithdrawn d true
    | .off | .lockout | .locked | .unreachable | .checkHold => s

/-- Whether an energising intent is stored as OFF (R138). -/
def District.refusesOn (x : District) : Bool :=
  x.state == .lockout || x.state == .locked || x.state == .checkHold || x.invalid || x.nodeField == 0

/-- The filter of word 0 (R138): the undefined code, and ON or ON_MANUAL where refused, are stored as OFF. -/
def District.filterIntent (x : District) (v : Word) : Word :=
  if field v 0 2 = 3 then v &&& 0xFFFC
  else if (intentOf v).energising && x.refusesOn then v &&& 0xFFFC
  else v

/-! ### District words 1 to 4 (R3, R139, R140) -/

/-- Whether a node and channel pair is held by another district's copy (R140). R140 also says that a write naming
the pair the district already holds passes; where another copy holds that same pair too, the model fails the
test (log 32). -/
def State.pairTaken (s : State) (d : DistrictId) (v : Word) : Bool :=
  (indices 32).any (fun e => e != d && (s.dist e).nodeField == field v 0 4
    && field (s.dist e).words[1] 4 2 == field v 4 2)

/-- Whether word w fails a test of R140. -/
def State.mappingFails (s : State) (d : DistrictId) (w : Fin 5) (v : Word) : Bool :=
  match w with
  | 1 => decide (8 < field v 0 4) || (field v 0 4 != 0 && s.pairTaken d v)
  | 2 => decide (7 < field v 0 4)
  | _ => false

/-- The clamps of R137 on a district word. -/
def clampDistrictWord (w : Fin 5) (v : Word) : Word :=
  match w with
  | 3 => clampField (clampField v 0 4 1 15) 8 5 1 16
  | 4 => clampField (clampField v 0 5 1 16) 8 8 1 255
  | _ => v

/-- Whether words 1 to 4 of the district pass the test of its state (R139). -/
def District.acceptsWords (x : District) : Bool := x.invalid || x.state.accepting

/-- The filtered value of words 1 to 4: the old word, or the value clamped (R136, R137, R139, R140). -/
def State.filterWord (s : State) (d : DistrictId) (w : Fin 5) (v : Word) : Word :=
  if (s.dist d).acceptsWords && !s.mappingFails d w v then clampDistrictWord w v else (s.dist d).words[w]

/-- Whether the write of v to words 1 to 4 latches REFUSED: the stored value differs (R136), or a test of R140
failed. Where a failed test keeps an old word that the host itself wrote, R136 latches nothing and R140 latches
REFUSED; the model latches it (log 32). -/
def State.wordRefused (s : State) (d : DistrictId) (w : Fin 5) (v : Word) : Bool :=
  fieldsDiffer w v (s.filterWord d w v) || ((s.dist d).acceptsWords && s.mappingFails d w v)

/-- The district's state judged against a new mapping (R3). -/
def State.judgeMapping (s : State) (d : DistrictId) : State :=
  match (s.dist d).state with
  | .unreachable =>
    match (s.dist d).node with
    | some k =>
      if (s.node k).state = .present then
        if (s.dist d).intent.energising then s.enterQueued d false else s.enter d .off
      else s
    | .none =>
      if (s.dist d).intent.energising then ((s.enter d .off).setIntentOff d).mark (.district d 0)
      else s.enter d .off
  | .off | .queued | .ramping | .proving | .live | .reversing | .tripped | .holdoff | .gated | .stopped
  | .lockout | .locked | .checkHold => s

/-- A changed mapping (R3): current 0, and the state judged. -/
def State.changeMapping (s : State) (d : DistrictId) : State :=
  (s.modDist d (fun x => { x with current := 0 })).judgeMapping d

/-! ### Reload (R23) -/

/-- Word w's number joins the reload set of an invalid context; the fifth completes the reload. -/
def State.reloadWord (s : State) (d : DistrictId) (w : Fin 5) : State :=
  if (s.dist d).invalid then
    let set := (s.dist d).reload ||| BitVec.twoPow 5 w.val
    if set = BitVec.allOnes 5 then
      let t := s.modDist d (fun x => { x with invalid := false, codeAgrees := true, reload := 0 })
      if (s.dist d).state = .checkHold then t.enter d .off else t
    else s.modDist d (fun x => { x with reload := set })
  else s

/-! ### Taking a district write (R22, R136) -/

/-- The state in which a district write is filtered: "A write whose reading raises a check error is taken
after the error". -/
def State.readForWrite (s : State) (d : DistrictId) : State :=
  if s.checkFails d then s.raiseCheck d else s

/-- A filtered value stored in word w of d, REFUSED latched if `refused`. -/
def State.storeFiltered (s : State) (d : DistrictId) (w : Fin 5) (v : Word) (refused : Bool) : State :=
  let t := s.storeIntent (.district d w) v
  if refused then t.modDist d District.latchRefused else t

/-- A host write to intent word 0 taken (R138, R11 to R16, R23). -/
def State.writeHostIntent (d : DistrictId) (v : Word) (l : Lanes) (s : State) : State :=
  let t := s.readForWrite d
  let written := mergeLanes l v (t.dist d).words[0]
  let stored := (t.dist d).filterIntent written
  t.finish d
    (((t.storeFiltered d 0 stored (fieldsDiffer 0 written stored)).intentMove d (intentOf stored)).reloadWord
      d 0)

/-- Whether a stored word 1 changes the node or the channel (R3). -/
def mappingChanged (old new : Word) : Bool := field old 0 6 != field new 0 6

/-- A host write to one of intent words 1 to 4 taken (R3, R23, R139, R140). -/
def State.writeDistrictWord (d : DistrictId) (w : Fin 5) (v : Word) (l : Lanes) (s : State) : State :=
  let t := s.readForWrite d
  let old := (t.dist d).words[w]
  let written := mergeLanes l v old
  let stored := t.filterWord d w written
  let u := t.storeFiltered d w stored (t.wordRefused d w written)
  t.finish d ((if w = 1 ∧ mappingChanged old stored then u.changeMapping d else u).reloadWord d w)

/-! ### Adjacency words (R54) -/

/-- Whether another entry is valid and names the same unordered pair. -/
def State.duplicates (s : State) (j : Fin 48) (v : Word) : Bool :=
  (indices 48).any (fun i => i != j && adjacentValid s.adjacency[i]
    && namesPair s.adjacency[i] (adjacentA v) (adjacentB v))

/-- The check of R54: a self-pair, a district above 31 or a duplicate clears the valid flag. -/
def State.filterAdjacency (s : State) (j : Fin 48) (v : Word) : Word :=
  if adjacentA v = adjacentB v ∨ 31 < adjacentA v ∨ 31 < adjacentB v ∨ s.duplicates j v then
    v &&& 0x7FFF
  else v

/-- A host write to an adjacency word taken. -/
def State.writeAdjacency (j : Fin 48) (v : Word) (l : Lanes) (s : State) : State :=
  s.storeIntent (.adjacency j) (s.filterAdjacency j (mergeLanes l v s.adjacency[j]))

/-! ### Feed and control settings (R99, R137, R141) -/

/-- The clamp of a feed setting. -/
def clampFeed (r : FeedReg) (v : Word) : Word :=
  match r with
  | .ceiling => clampField v 0 6 1 63
  | .concurrency => clampField v 0 3 1 4
  | .sagThreshold => clampField v 0 4 2 8
  | .settleTime => clampField v 0 8 1 255

/-- A host write to a feed setting taken; "A write to the ceiling or to the concurrency is an occasion for a
dispatcher scan" (R99, R68). -/
def State.writeFeed (k : FeedId) (r : FeedReg) (v : Word) (l : Lanes) (s : State) : State :=
  let t := s.storeIntent (.feed k r) (clampFeed r (mergeLanes l v ((s.feed k).read r)))
  match r with
  | .ceiling | .concurrency => t.scan
  | .sagThreshold | .settleTime => t

/-- The position of a control setting. -/
def settingReg : Setting → ControlReg
  | .gatheringWindow => .gatheringWindow
  | .provingWindow => .provingWindow
  | .quietInterval => .quietInterval
  | .holdoffBase => .holdoffBase
  | .drainPeriod => .drainPeriod

/-- The clamp of a control setting. -/
def clampSetting (r : Setting) (v : Word) : Word :=
  match r with
  | .gatheringWindow => clampField v 0 5 1 31
  | .provingWindow => clampField v 0 8 5 255
  | .quietInterval => clampField v 0 8 1 255
  | .holdoffBase => clampField v 0 8 1 255
  | .drainPeriod => clampField v 0 8 1 255

/-- A host write to a control setting taken. -/
def State.writeSetting (r : Setting) (v : Word) (l : Lanes) (s : State) : State :=
  s.storeIntent (.control (settingReg r)) (clampSetting r (mergeLanes l v (s.control.read (settingReg r))))

/-- Every attempt count above the limit in force set to it (R19). -/
def State.capAttempts (s : State) : State :=
  { s with districts := tabulate 32 (fun d =>
      { s.dist d with attempts := min (s.dist d).attempts s.control.limit }) }

/-- A host write to the attempt limit taken (R19, R137). -/
def State.writeAttemptLimit (v : Word) (l : Lanes) (s : State) : State :=
  (s.storeIntent (.control .attemptLimit)
    (clampField (mergeLanes l v s.control.attemptLimit) 0 3 1 7)).capAttempts

/-- A host write to the fault mask taken: "bits 15:5 are stored as 0" (R141, R169). -/
def State.writeFaultMask (v : Word) (l : Lanes) (s : State) : State :=
  s.storeIntent (.control .faultMask) (mergeLanes l v s.control.faultMask &&& 0x001F)

/-! ### Ring settings (R142) -/

/-- The position of a ring setting. -/
def ringReg : RingReg → ControlReg
  | .baseLow => .ringBaseLow
  | .baseHigh => .ringBaseHigh
  | .capacity => .ringCapacity

/-- Whether a ring of `capacity` records at `base` would place a word in the window at strap value s: two
runs of addresses on the wrapping face meet when one's start lies in the other. -/
def ringMeetsWindow (s : Fin 8) (base capacity : Nat) : Bool :=
  decide ((windowStart s + 2 ^ 19 - base) % 2 ^ 19 < capacity * 8)
    || decide (0 < capacity ∧ (base + 2 ^ 19 - windowStart s) % 2 ^ 19 < 2048)

/-- The value a ring setting is tested and stored with: base bits 2:0 cleared, the capacity clamped. -/
def clampRing (r : RingReg) (v : Word) : Word :=
  match r with
  | .baseLow => v &&& 0xFFF8
  | .baseHigh => v
  | .capacity => BitVec.ofNat 16 (clamp 16 256 v.toNat)

/-- Whether a write of a ring setting is refused: "the ring is not empty, or a record is being written, or
the ring would place a word inside the window". -/
def State.ringRefuses (s : State) (r : RingReg) (v : Word) : Bool :=
  let after := s.control.store (ringReg r) (clampRing r v)
  !s.ringEmpty || s.ring.progress.isSome || ringMeetsWindow s.windowBase after.ringBase after.capacity

/-- Both indexes at 0, the consumer index marked for correction. -/
def State.restartRing (s : State) : State :=
  ((s.modRing (fun r => { r with producer := 0 })).modControl (fun c => { c with consumerIndex := 0 })).mark
    (.control .consumerIndex)

/-- A host write to a ring base word or the capacity taken; a refused one stores the old value. -/
def State.writeRingSetting (r : RingReg) (v : Word) (l : Lanes) (s : State) : State :=
  let old := s.control.read (ringReg r)
  let written := mergeLanes l v old
  if s.ringRefuses r written then s.storeIntent (.control (ringReg r)) old
  else (s.storeIntent (.control (ringReg r)) (clampRing r written)).restartRing

/-- Whether an index is "one of the positions from the current consumer index onward to the producer index,
both included" (R142); one at or above the capacity is not. -/
def State.consumable (s : State) (v : Word) : Bool :=
  let capacity := s.control.capacity
  let consumer := s.control.consumer
  decide (v.toNat < capacity)
    && decide ((v.toNat + capacity - consumer) % capacity ≤ (s.ring.producer + capacity - consumer) % capacity)

/-- A host write to the consumer index taken (R142, R166). -/
def State.writeConsumer (v : Word) (l : Lanes) (s : State) : State :=
  let old := s.control.consumerIndex
  let written := mergeLanes l v old
  s.storeIntent (.control .consumerIndex) (if s.consumable written then written else old)

/-! ### The lock set (R143, R153 to R156) -/

/-- The position of a half of the lock set. -/
def lockReg : LockHalf → ControlReg
  | .low => .lockSetLow
  | .high => .lockSetHigh

/-- The filter of a lock set word (R143). -/
def State.filterLock (s : State) (h : LockHalf) (v : Word) : Word :=
  if s.freeze then s.control.read (lockReg h) ||| v else v

/-- The districts of one half whose bit is set in w, in rising order. -/
def districtsOf (h : LockHalf) (w : Word) : List DistrictId :=
  (indices 32).filter (fun d =>
    match h with
    | .low => decide (d.val < 16) && w.getLsbD d.val
    | .high => decide (16 ≤ d.val) && w.getLsbD (d.val - 16))

/-- A district's entry to LOCKED (R154): out of engine and queue with no attempt counted, the intent OFF in
the copy, and word 0 marked if the intent was ON or ON_MANUAL and the context is valid. -/
def State.enterLocked (s : State) (d : DistrictId) : State :=
  let t := (s.depart d).enter d .locked
  if (s.dist d).intent.energising then (t.setIntentOff d).mark (.district d 0) else t

/-- A LOCKED district's exit by the precedence of R25. -/
def State.exitLocked (s : State) (d : DistrictId) : State :=
  if (s.dist d).state ≠ .locked then s
  else if (s.dist d).invalid then s.enter d .checkHold
  else if (s.dist d).node.isSome && !s.nodePresent d then s.enter d .unreachable
  else s.enter d .off

/-- A lock claim with effect f at d's context: a check error is taken first, and "the entry is then taken
from CHECK_HOLD at the same claim" (R154, R155). -/
def State.lockClaim (s : State) (d : DistrictId) (f : State → State) : State :=
  s.finish d (f (if s.checkFails d then s.checkError d else s))

/-- The claim a write that stored `stored` in half h gives d: entry if d is in it, exit if not (R153). -/
def State.membershipClaim (h : LockHalf) (stored : Word) (d : DistrictId) (s : State) : State :=
  if (districtsOf h stored).contains d then s.lockClaim d (fun t => t.enterLocked d)
  else s.lockClaim d (fun t => t.exitLocked d)

/-- REFUSED latched in each district of a list. -/
def State.latchRefusedAll (s : State) (l : List DistrictId) : State :=
  l.foldl (fun t d => t.modDist d District.latchRefused) s

/-- A host write to a lock set word taken (R143, R153): the word stored, REFUSED latched for each removal
that the freeze kept back, and the claims of the changes in a free order (log 5). -/
def State.writeLock (h : LockHalf) (v : Word) (l : Lanes) (s : State) : State :=
  let old := s.control.read (lockReg h)
  let written := mergeLanes l v old
  let stored := s.filterLock h written
  let t := (s.storeIntent (.control (lockReg h)) stored).latchRefusedAll
    (districtsOf h (stored &&& ~~~written))
  t.inFreeOrder (districtsOf h (stored ^^^ old)) (State.membershipClaim h stored)

/-! ### By position (R126) -/

/-- A host write to a word of the control block taken. -/
def State.writeControl (r : ControlReg) (v : Word) (l : Lanes) (s : State) : State :=
  match r with
  | .gatheringWindow => s.writeSetting .gatheringWindow v l
  | .provingWindow => s.writeSetting .provingWindow v l
  | .quietInterval => s.writeSetting .quietInterval v l
  | .holdoffBase => s.writeSetting .holdoffBase v l
  | .attemptLimit => s.writeAttemptLimit v l
  | .drainPeriod => s.writeSetting .drainPeriod v l
  | .faultMask => s.writeFaultMask v l
  | .ringBaseLow => s.writeRingSetting .baseLow v l
  | .ringBaseHigh => s.writeRingSetting .baseHigh v l
  | .ringCapacity => s.writeRingSetting .capacity v l
  | .consumerIndex => s.writeConsumer v l
  | .lockSetLow => s.writeLock .low v l
  | .lockSetHigh => s.writeLock .high v l

/-- A host write to an intent word taken at the memory face. -/
def State.takeIntentWrite (p : IntentPos) (v : Word) (l : Lanes) (s : State) : State :=
  match p with
  | .control r => s.writeControl r v l
  | .feed k r => s.writeFeed k r v l
  | .adjacency j => s.writeAdjacency j v l
  | .district d w => if w = 0 then s.writeHostIntent d v l else s.writeDistrictWord d w v l

end Sys2Proof.Machine
end

