-- ==== Sys2Proof/Machine/Commands.lean ====
section
/-! DEFINITION. Control commands and district actions: the layout reset, the lockout clears, the lock freeze,
CLEAR_FLAGS, and other codes (R17, R27, R52, R89, R104, R149 to R152, R168). -/

namespace Sys2Proof.Machine

open Sys2Proof

/-! ### The layout reset (R27, R52, R89, R104, R146, R151, R168) -/

/-- The state a district has after a layout reset (R27). -/
def DistrictState.rested : DistrictState → DistrictState
  | .locked => .locked
  | .unreachable => .unreachable
  | .checkHold => .checkHold
  | .off | .queued | .ramping | .proving | .live | .reversing | .tripped | .holdoff | .gated | .stopped
  | .lockout => .off

/-- A context brought to rest (R27): its state; count, mark and timers; incident slot and role; level 0 if it
goes to OFF. Everything else is kept. -/
def District.rest (x : District) : District :=
  { x with
    state := x.state.rested
    attempts := 0
    level := if x.state.rested = .off then 0 else x.level
    incidentSlot := .none
    role := .none
    mark := false
    holdoffTimer := .none
    provingTimer := .none
    quietTimer := .none }

/-- The intent of a valid context set to OFF in the copy and word 0 marked, if it was ON or ON_MANUAL (R27). -/
def State.restIntent (s : State) (d : DistrictId) : State :=
  if !(s.dist d).invalid && (s.dist d).intent.energising then (s.setIntentOff d).mark (.district d 0) else s

/-- Every context brought to rest, without a check (R21) and without a notice (R10). -/
def State.restDistricts (s : State) : State :=
  (indices 32).foldl State.restIntent
    { s with districts := tabulate 32 (fun d => (s.dist d).rest) }

/-- The slots that are not FREE. -/
def State.occupiedSlots (s : State) : List SlotId :=
  (indices 4).filter (fun n => (s.slot n).state != .free)

/-- Every slot that is not FREE discarded, each raising the missed count once; the list of waiting slots
emptied and the layout-reset-preceded flag set (R52, R167, R168). -/
def State.discardSlots (s : State) : State :=
  { s with
    slots := tabulate 4 (fun n => if (s.slot n).state = .free then s.slot n else Slot.blank)
    ring := { s.occupiedSlots.foldl (fun r _ => r.raiseMissed) s.ring with closing := [], layoutReset := true } }

/-- The queue emptied and every engine IDLE (R89); every feed's engaged count 0 and its history empty (R104). -/
def State.restSequencing (s : State) : State :=
  { s with
    queue := []
    engines := tabulate 4 (fun e =>
      { s.engine e with district := .none, index := 0, stalls := 0, timer := .none })
    feeds := tabulate 8 (fun k => { s.feed k with engaged := 0, history := [] }) }

/-- The layout reset (R151), with the last reset cause and the last-command word (R146, R150). -/
def State.layoutReset (s : State) : State :=
  { s.restDistricts.discardSlots.restSequencing with
    lastResetCause := .layout
    lastCommand := codeLayoutReset }

/-! ### The other codes (R17, R149, R150, R152) -/

/-- The effect of a lockout clear at d (R17). -/
def State.clearLockoutAt (s : State) (d : DistrictId) : State :=
  if (s.dist d).state = .lockout then (s.enter d .off).modDist d (fun x => { x with attempts := 0 }) else s

/-- CLEAR_LOCKOUT at d: a claim at its context (R17, R149). -/
def State.clearLockout (d : DistrictId) (s : State) : State :=
  s.claim d (fun t => t.clearLockoutAt d)

/-- CLEAR_FLAGS at d: a claim at its context (R149). -/
def State.clearFlagsAt (d : DistrictId) (s : State) : State :=
  s.claim d (fun t => t.modDist d District.clearFlags)

/-- The districts at which a lockout clear does something: those in LOCKOUT, and those whose check fails. At
every other the claim leaves the context as it is (R17). -/
def State.clearable (s : State) : List DistrictId :=
  (indices 32).filter (fun d => (s.dist d).state == .lockout || s.checkFails d)

/-- CLEAR_ALL_LOCKOUTS (R152): a lockout clear claim to each district, "each taken at its own context", in a
free order (log 5). -/
def State.clearAllLockouts (s : State) : State :=
  { s.inFreeOrder s.clearable State.clearLockout with lastCommand := codeClearAllLockouts }

/-- LOCK_FREEZE (R152, R156). -/
def State.lockFreeze (s : State) : State :=
  { s with freeze := true, lastCommand := codeLockFreeze }

/-- What the last-command word shows of a code not taken: bits 14:0 of the code, and bit 15 set (R150, R171). -/
def notTaken (code : Word) : Word := code ||| 0x8000

/-- A write to the control command word (R150). -/
def State.command (code : Word) (s : State) : State :=
  if code = codeLayoutReset then s.layoutReset
  else if code = codeClearAllLockouts then s.clearAllLockouts
  else if code = codeLockFreeze then s.lockFreeze
  else if code = 0 then s
  else { s with lastCommand := notTaken code }

/-- A write to district d's action word (R149). -/
def State.action (d : DistrictId) (code : Word) (s : State) : State :=
  if code = codeClearLockout then s.clearLockout d
  else if code = codeClearFlags then s.clearFlagsAt d
  else s

/-! ### The commands -/

/-- LAYOUT_RESET (R151). -/
def execLayoutReset (s : State) : Host.Outcome State Fault Refusal :=
  .next (s.running State.layoutReset)

/-- CLEAR_ALL_LOCKOUTS (R152). -/
def execClearAllLockouts (s : State) : Host.Outcome State Fault Refusal :=
  .next (s.running State.clearAllLockouts)

/-- LOCK_FREEZE (R152). -/
def execLockFreeze (s : State) : Host.Outcome State Fault Refusal :=
  .next (s.running State.lockFreeze)

/-- UNKNOWN_COMMAND_CODE (R150): a write of the code to the control command word. -/
def execUnknownCommandCode (code : Word) (s : State) : Host.Outcome State Fault Refusal :=
  .next (s.running (State.command code))

/-- CLEAR_LOCKOUT (R17, R149). -/
def execClearLockout (d : DistrictId) (s : State) : Host.Outcome State Fault Refusal :=
  .next (s.running (State.clearLockout d))

/-- CLEAR_FLAGS (R149). -/
def execClearFlags (d : DistrictId) (s : State) : Host.Outcome State Fault Refusal :=
  .next (s.running (State.clearFlagsAt d))

end Sys2Proof.Machine
end

