-- ==== Sys2Proof/Machine/Views.lean ====
section
/-! DEFINITION. What the part answers when a live word is read (R64, R102, R121, R144 to R148, R171 to R173),
and the words of an incident record (R176). -/

namespace Sys2Proof.Machine

open Sys2Proof

/-- The control status word (R147, R171). -/
def State.statusWord (s : State) : Word :=
  BitVec.ofNat 16 (place 0 1 (ofMark (!s.corrections.isEmpty)) + place 1 1 (ofMark s.hold)
    + place 2 1 (ofMark s.faultAsserted) + place 4 3 s.openCount
    + place 8 1 (ofMark (s.engine 0).district.isSome) + place 9 1 (ofMark (s.engine 1).district.isSome)
    + place 10 1 (ofMark (s.engine 2).district.isSome) + place 11 1 (ofMark (s.engine 3).district.isSome))

/-- A node state word (R121, R171). -/
def Node.word (x : Node) : Word :=
  BitVec.ofNat 16 (place 0 2 x.state.code + place 4 2 x.misses + place 8 1 (ofMark x.restarted))

/-- A feed's state word (R172). -/
def Feed.word (x : Feed) : Word :=
  BitVec.ofNat 16 (place 0 2 x.state.code + place 4 3 x.engaged + place 8 6 x.stress)

/-- History entry i, or the empty mark 0xFF (R172). -/
def Feed.historyByte (x : Feed) (i : Nat) : Byte :=
  match x.history[i]? with
  | some d => BitVec.ofNat 8 d.val
  | .none => 0xFF

/-- A district's state word (R144, R173). R9 says that the commanded level too is shown in the state word; the
model follows R144 and R173, which lay it out in the current and level word (log 30). -/
def District.stateWord (x : District) : Word :=
  BitVec.ofNat 16 (place 0 4 x.state.code + place 4 1 x.polarity.code + place 5 1 (ofMark x.mark)
    + place 6 1 (ofMark x.invalid) + place 8 3 x.attempts + place 11 5 x.reload.toNat)

/-- A district's current and level word (R173). -/
def District.levelWord (x : District) : Word :=
  BitVec.ofNat 16 (place 0 8 x.current.toNat + place 8 5 x.level)

/-- The incident slot field: the slot; 4 for a district in no open slot whose last incident id is valid; 7
when it is NONE (R173). -/
def District.slotCode (x : District) : Nat :=
  match x.lastIncident, x.incidentSlot with
  | .none, _ => 7
  | some _, some n => n.val
  | some _, .none => 4

/-- The last incident id as read: NONE reads 0 in bits 15:8. -/
def District.incidentCode (x : District) : Nat :=
  match x.lastIncident with
  | some n => n.toNat
  | .none => 0

/-- A district's cause and incident word (R173). -/
def District.causeWord (x : District) : Word :=
  BitVec.ofNat 16 (place 0 3 (causeCode x.lastCause) + place 3 2 x.role.code + place 5 3 x.slotCode
    + place 8 8 x.incidentCode)

/-- The set of the districts that satisfy P. -/
def State.districtsWith (s : State) (P : District → Bool) : DistrictSet :=
  setOf ((indices 32).filter (fun d => P (s.dist d)))

/-- One half of a set. -/
def halfOf (high : Bool) (x : DistrictSet) : Word := if high then highHalf x else lowHalf x

/-- Word i of the queue view, or the empty mark 0xFFFF (R64, R173). -/
def State.queueWord (s : State) (i : Fin 32) : Word :=
  match s.queue[i.val]? with
  | some d => BitVec.ofNat 16 d.val
  | .none => 0xFFFF

/-- The class as read: NONE, which a GATHERING slot shows, is 15 (R173). -/
def Slot.classCode (x : Slot) : Nat :=
  match x.cls with
  | some c => c.code
  | .none => 15

/-- The origin and its NONE bit as read (R173). With the origin NONE the spec gives bit 9 alone; that bits 8:4
then read 0 is the model's choice (log 33). -/
def Slot.originCode (x : Slot) : Nat :=
  match x.origin with
  | some d => place 4 5 d.val
  | .none => place 9 1 1

/-- Word i of a slot's incident view; "A FREE slot reads 0 in every word" (R148, R173). -/
def Slot.view (x : Slot) (i : Fin 8) : Word :=
  if x.state = .free then 0
  else
    match i with
    | 0 => BitVec.ofNat 16 (place 0 2 x.state.code + place 8 8 x.id.toNat)
    | 1 => BitVec.ofNat 16 (place 0 4 x.classCode + x.originCode + place 10 6 x.members.length)
    | 2 => lowHalf (setOf (x.members.map Member.district))
    | 3 => highHalf (setOf (x.members.map Member.district))
    | 4 => lowHalf x.restored
    | 5 => highHalf x.restored
    | 6 => lowHalf x.lockouts
    | 7 => highHalf x.lockouts

/-- A live word as it stands when the read is taken. -/
def State.liveView (s : State) : LiveWord → Word
  | .lastCommand => s.lastCommand
  | .status => s.statusWord
  | .producerIndex => BitVec.ofNat 16 (place 0 9 s.ring.producer)
  | .nodeState k => (s.node k).word
  | .feedState k => (s.feed k).word
  | .feedHistory k false => ofLanes ((s.feed k).historyByte 1) ((s.feed k).historyByte 0)
  | .feedHistory k true => ofLanes ((s.feed k).historyByte 3) ((s.feed k).historyByte 2)
  | .withFlags high => halfOf high (s.districtsWith (fun x => x.flags.any))
  | .inLockout high => halfOf high (s.districtsWith (fun x => x.state == .lockout))
  | .inLive high => halfOf high (s.districtsWith (fun x => x.state == .live))
  | .queueView i => s.queueWord i
  | .incidentView n i => (s.slot n).view i
  | .districtState d => (s.dist d).stateWord
  | .districtLevel d => (s.dist d).levelWord
  | .districtCause d => (s.dist d).causeWord

/-! ### The record (R176) -/

/-- The status code of district number d: 0 outside the members; otherwise 1, raised by 1 in the restored
set and by 2 in the lockout set. -/
def Record.status (x : Record) (d : Nat) : Nat :=
  if x.members.getLsbD d then 1 + ofMark (x.restored.getLsbD d) + 2 * ofMark (x.lockouts.getLsbD d) else 0

/-- The status string as a number: pair k at string bits 5k to 5k + 4, "the code of district 2k plus 5 times
the code of district 2k + 1". -/
def Record.statusString (x : Record) : Nat :=
  ((List.range 16).map (fun k => (x.status (2 * k) + 5 * x.status (2 * k + 1)) * 2 ^ (5 * k))).sum

/-- Word i of a record. -/
def Record.word (x : Record) (i : Nat) : Word :=
  match i with
  | 0 => BitVec.ofNat 16 (place 0 8 x.id.toNat + place 8 5 x.origin.val + place 13 3 x.cls.code)
  | 1 => BitVec.ofNat 16 (place 0 16 x.duration)
  | 2 =>
    BitVec.ofNat 16 (place 0 8 x.missed + place 8 5 (x.count - 1) + place 13 1 (ofMark x.anySaturated)
      + place 14 1 (ofMark x.solitaryLoss) + place 15 1 (ofMark x.layoutReset))
  | n => BitVec.ofNat 16 (x.statusString / 2 ^ (16 * (n - 3)))

end Sys2Proof.Machine
end

