-- ==== Sys2Proof/Machine/Path.lean ====
section
/-! DEFINITION. The pass-through path: reads and how they are served, host accesses and WAIT, the memory-face
arbiter, correction words, ring words, and the two faces under RESET (chapters 7 and 10; R145, R146). -/

namespace Sys2Proof.Machine

open Sys2Proof

/-! ### Reads (R126, R127, R145, R146) -/

/-- A word returned on the requested lanes. -/
def State.returnWord (s : State) (l : Lanes) (w : Word) : State :=
  { s with readData := onLanes l w }

/-- A read of d's flags word: "A read returns every flag that is set, and at the same event clears every flag
it returned", whichever lane carries it (R145, R127). -/
def State.readFlags (d : DistrictId) (l : Lanes) (s : State) : State :=
  (s.returnWord l (s.dist d).flags.word).modDist d District.clearFlags

/-- A read of the last reset cause: "A read returns the value and then sets the word to NONE" (R146). -/
def State.readResetCause (l : Lanes) (s : State) : State :=
  { s.returnWord l (BitVec.ofNat 16 s.lastResetCause.code) with lastResetCause := .none }

/-- The district whose context a read of position p from the copy reads, if it is a district word. -/
def districtOf : IntentPos → Option DistrictId
  | .district d _ => some d
  | .control _ | .feed _ _ | .adjacency _ => .none

/-- Whether a read of position p is served from the copy: it is marked, and it does not belong to a district
whose context-invalid flag is set (R126). -/
def State.servesCopy (s : State) (p : IntentPos) : Bool := s.marked p && !s.ofInvalid p

/-- The check of a read served from a district's copy (R21, R126): an error leaves the position to memory. -/
def State.checkRead (s : State) (p : IntentPos) : State :=
  match districtOf p with
  | some d => if s.servesCopy p && s.checkFails d then s.raiseCheck d else s
  | .none => s

/-- The value of an action word as the Image Decoder takes it: the lane not written reads as 0 (R127). -/
def actionWord (l : Lanes) (v : Word) : Word := mergeLanes l v 0

/-- The word a request addresses. -/
def State.target (s : State) (r : Request) : WordRef := refAt s.windowBase r.addr

/-- The check a request makes when it is taken: that of an intent read. -/
def State.checkRequest (s : State) (r : Request) : State :=
  match s.target r, r.op with
  | .intent p, .read => s.checkRead p
  | _, _ => s

/-- Whether a request needs the memory face (R126). -/
def State.needsFace (s : State) (r : Request) : Bool :=
  match s.target r, r.op with
  | .intent p, .read => !s.servesCopy p
  | .intent _, .write _ => true
  | .owner, _ => true
  | .live _, _ | .lastResetCause, _ | .flags _, _ | .command, _ | .action _, _ => false

/-- A request answered or taken by the part without a memory cycle (R126, R127). -/
def State.serve (s : State) (r : Request) : State :=
  match s.target r, r.op with
  | .intent p, .read => s.returnWord r.lanes (s.copy p)
  | .live w, .read => s.returnWord r.lanes (s.liveView w)
  | .lastResetCause, .read => s.readResetCause r.lanes
  | .flags d, .read => s.readFlags d r.lanes
  | .command, .read => s.returnWord r.lanes 0
  | .action _, .read => s.returnWord r.lanes 0
  | .command, .write v => s.command (actionWord r.lanes v)
  | .action d, .write v => s.action d (actionWord r.lanes v)
  | .live _, .write _ | .lastResetCause, .write _ | .flags _, .write _ => s
  | .intent _, .write _ | .owner, _ => s

/-- A request carried out on the memory face (R123, R126): an intent write is taken by the Image Decoder;
everything else is forwarded unchanged. -/
def State.carryOut (s : State) (r : Request) : State :=
  match r.op with
  | .read => s.returnWord r.lanes (Memory.word s.mem r.addr)
  | .write v =>
    match s.target r with
    | .intent p => s.takeIntentWrite p v r.lanes
    | .live _ | .lastResetCause | .flags _ | .command | .action _ | .owner => s.writeMem r.addr r.lanes v

/-! ### Host accesses (R123, R126, R128, R129) -/

/-- An access that needs the memory face (R128): it takes an idle face and is carried out, or waits for an own
word. The host makes one access at a time, so the face is not its own already (log 3). -/
def State.seekFace (r : Request) (s : State) : State :=
  match s.face with
  | .idle => ({ s with face := .host, access := .onFace r }).carryOut r
  | .correction _ _ | .ring _ _ => { s with access := .waiting r }
  | .host => s

/-- A host access placed (R126, R128): served at once if it needs no memory face. -/
def State.placeAccess (r : Request) (s : State) : State :=
  let t := s.checkRequest r
  if t.needsFace r then t.seekFace r else { t.serve r with access := .served r }

/-- A host access begins (R123). The host makes one access at a time (log 3). -/
def State.beginAccess (r : Request) (s : State) : State :=
  match s.access with
  | .none => s.placeAccess r
  | .waiting _ | .onFace _ | .served _ => s

/-- An access ended while WAIT is asserted is dropped (R129): a read leaves the data lines not driven. -/
def State.dropAccess (s : State) : State :=
  match s.access with
  | .waiting r =>
    match r.op with
    | .read => { s with access := .none, readData := notDriven }
    | .write _ => { s with access := .none }
  | .none | .onFace _ | .served _ => s

/-- The host releases the strobe (R123, R128): the access goes to NONE, and the face it holds to IDLE. -/
def State.endAccess (s : State) : State :=
  match s.access with
  | .onFace _ => { s with access := .none, face := .idle }
  | .served _ => { s with access := .none }
  | .waiting _ => s.dropAccess
  | .none => s

/-- A whole access of a row that names it (log 4): with the face idle, `taken` at once; behind an own word
the request waits; a face the host already holds cannot arise. -/
def State.wholeAccess (r : Request) (taken : State → State) (s : State) : State :=
  match s.face with
  | .idle => taken s
  | .host => s
  | .correction _ _ | .ring _ _ =>
    match s.access with
    | .none => { s with access := .waiting r }
    | .waiting _ | .onFace _ | .served _ => s

/-- A write of position p. -/
def State.writeRequest (s : State) (p : IntentPos) (v : Word) (l : Lanes) : Request :=
  { addr := addressOf s.windowBase p, op := .write v, lanes := l }

/-- A read of position p. -/
def State.readRequest (s : State) (p : IntentPos) (l : Lanes) : Request :=
  { addr := addressOf s.windowBase p, op := .read, lanes := l }

/-- A whole host write to position p, with effect `taken` when it has the face. -/
def State.hostWrite (p : IntentPos) (v : Word) (l : Lanes) (taken : State → State) (s : State) : State :=
  s.wholeAccess (s.writeRequest p v l) taken

/-- A whole host read of position p (R126, R132): from the copy without the face, or from memory. -/
def State.hostRead (p : IntentPos) (l : Lanes) (s : State) : State :=
  let t := s.checkRead p
  if t.servesCopy p then t.returnWord l (t.copy p)
  else
    t.wholeAccess (t.readRequest p l)
      (fun u => u.returnWord l (Memory.word u.mem (addressOf u.windowBase p)))

/-! ### Own words (R128, R130, R131, R134, R161, R164, R165) -/

/-- The face after an own word (R128): IDLE, or taken at once by a WAITING access; a WAITING read whose position
has been marked meanwhile is served from the copy and leaves the face idle (R126). -/
def State.releaseFace (s : State) : State :=
  match s.access with
  | .waiting r => ({ s with face := .idle }).placeAccess r
  | .none | .onFace _ | .served _ => { s with face := .idle }

/-- The correction word of the marked position at the lowest offset begins on an idle face (R131); a reading
that raises a check error starts none. -/
def State.startCorrection (s : State) : State :=
  match s.face, s.corrections with
  | .idle, p :: _ =>
    match districtOf p with
    | some d => if s.checkFails d then s.raiseCheck d else { s with face := .correction p (s.copy p) }
    | .none => { s with face := .correction p (s.copy p) }
  | _, _ => s

/-- The mark of a position whose correction word has completed: "Equal. The mark is cleared." (R131). -/
def State.settleMark (s : State) (p : IntentPos) (v : Word) : State :=
  if s.copy p = v then s.unmark p else s

/-- A correction word completes (R131, R128). -/
def State.completeCorrection (s : State) : State :=
  match s.face with
  | .correction p v => ((s.writeMem (addressOf s.windowBase p) .both v).settleMark p v).releaseFace
  | .idle | .host | .ring _ _ => s

/-- The word address of word i of the record at the producer index (R161): addresses wrap at 2^19. -/
def State.ringAddress (s : State) (i : Nat) : WordAddr :=
  BitVec.ofNat 19 (s.control.ringBase + 8 * s.ring.producer + i)

/-- The head record completed with the Ring Writer's own fields, in the order of R164. -/
def RingWriter.beginRecord (r : RingWriter) (x : Record) (rest : List Record) : RingWriter :=
  { r with
    records :=
      { x with missed := r.missed, solitaryLoss := r.solitaryLoss, layoutReset := r.layoutReset } :: rest
    missed := 0
    solitaryLoss := false
    layoutReset := false
    progress := some 0 }

/-- The next ring word begins on an idle face with no position marked (R128, R164). -/
def State.startRing (s : State) : State :=
  match s.face, s.corrections, s.ring.records with
  | .idle, [], x :: rest =>
    match s.ring.progress with
    | some i => { s with face := .ring (s.ringAddress i) (x.word i) }
    | .none =>
      if s.ringFull then s
      else
        let t := s.modRing (fun r => r.beginRecord x rest)
        { t with face := .ring (s.ringAddress 0) (x.word 0) }
  | _, _, _ => s

/-- The producer advance at the completion of word 7 (R165, R162). -/
def State.advanceProducer (s : State) : State :=
  (s.modRing (fun r =>
    { r with producer := (r.producer + 1) % s.control.capacity, records := r.records.drop 1, progress := .none
    })).acceptRecord

/-- The progress of the record after a word completes (R165). -/
def State.ringProgress (s : State) : State :=
  match s.ring.progress with
  | some i => if i < 7 then s.modRing (fun r => { r with progress := some (i + 1) }) else s.advanceProducer
  | .none => s

/-- A ring word completes (R165, R128). -/
def State.completeRing (s : State) : State :=
  match s.face with
  | .ring a v => ((s.writeMem a .both v).ringProgress).releaseFace
  | .idle | .host | .correction _ _ => s

/-! ### RESET (R134) -/

/-- A memory word left to the free value because its own word was cut off (log 10). -/
def State.spoil (s : State) (a : WordAddr) : State :=
  { s with mem := Memory.write s.mem a .both (Config.cutOffWord s.choices), choices := s.choices + 1 }

/-- An own word in progress cut off by the reset: it "may leave its memory position with an undefined value". -/
def State.cutOff (s : State) : State :=
  match s.face with
  | .correction p _ => s.spoil (addressOf s.windowBase p)
  | .ring a _ => s.spoil a
  | .idle | .host => s

/-- RESET held (R134, R122): any access, own word and exchange abandoned, and neither face driven. -/
def State.holdReset (s : State) : State :=
  { s.cutOff with
    access := .none
    face := .idle
    readData := notDriven
    exchange := .none
    inReset := true }

/-- A full reset, from any state: every block at its full-reset values with the pins sampled at its end. -/
def State.fullReset (pins : Pins) (s : State) : State :=
  State.afterFullReset pins s.cutOff.mem s.cutOff.choices s.pending

end Sys2Proof.Machine
end

