-- ==== Sys2Proof/Machine/HostRows.lean ====
section
/-! DEFINITION. The commands of the host's accesses, of the own words and of the resets: the writes and reads
of one word as whole accesses (log 4), the access path itself, and RESET. -/

namespace Sys2Proof.Machine

open Sys2Proof

/-! ### Writes (R136) -/

/-- HOST_INTENT_WRITE (R11 to R16, R138). -/
def execHostIntentWrite (d : DistrictId) (v : Word) (l : Lanes) (s : State) :
    Host.Outcome State Fault Refusal :=
  .next (s.running (State.hostWrite (.district d 0) v l (State.writeHostIntent d v l)))

/-- DISTRICT_WORD_WRITE (R139, R140): intent word w + 1. -/
def execDistrictWordWrite (d : DistrictId) (w : Fin 4) (v : Word) (l : Lanes) (s : State) :
    Host.Outcome State Fault Refusal :=
  .next (s.running (State.hostWrite (.district d w.succ) v l (State.writeDistrictWord d w.succ v l)))

/-- ADJACENCY_WRITE (R54). -/
def execAdjacencyWrite (j : Fin 48) (v : Word) (l : Lanes) (s : State) :
    Host.Outcome State Fault Refusal :=
  .next (s.running (State.hostWrite (.adjacency j) v l (State.writeAdjacency j v l)))

/-- FEED_SETTING_WRITE (R99). -/
def execFeedSettingWrite (k : FeedId) (r : FeedReg) (v : Word) (l : Lanes) (s : State) :
    Host.Outcome State Fault Refusal :=
  .next (s.running (State.hostWrite (.feed k r) v l (State.writeFeed k r v l)))

/-- CONTROL_SETTING_WRITE (R141). -/
def execControlSettingWrite (r : Setting) (v : Word) (l : Lanes) (s : State) :
    Host.Outcome State Fault Refusal :=
  .next (s.running (State.hostWrite (.control (settingReg r)) v l (State.writeSetting r v l)))

/-- ATTEMPT_LIMIT_WRITE (R19). -/
def execAttemptLimitWrite (v : Word) (l : Lanes) (s : State) :
    Host.Outcome State Fault Refusal :=
  .next (s.running (State.hostWrite (.control .attemptLimit) v l (State.writeAttemptLimit v l)))

/-- FAULT_MASK_WRITE (R160). -/
def execFaultMaskWrite (v : Word) (l : Lanes) (s : State) :
    Host.Outcome State Fault Refusal :=
  .next (s.running (State.hostWrite (.control .faultMask) v l (State.writeFaultMask v l)))

/-- RING_SETTING_WRITE (R142). -/
def execRingSettingWrite (r : RingReg) (v : Word) (l : Lanes) (s : State) :
    Host.Outcome State Fault Refusal :=
  .next (s.running (State.hostWrite (.control (ringReg r)) v l (State.writeRingSetting r v l)))

/-- CONSUMER_INDEX_WRITE (R142, R166). -/
def execConsumerIndexWrite (v : Word) (l : Lanes) (s : State) :
    Host.Outcome State Fault Refusal :=
  .next (s.running (State.hostWrite (.control .consumerIndex) v l (State.writeConsumer v l)))

/-- LOCK_SET_WRITE (R143, R153). -/
def execLockSetWrite (h : LockHalf) (v : Word) (l : Lanes) (s : State) :
    Host.Outcome State Fault Refusal :=
  .next (s.running (State.hostWrite (.control (lockReg h)) v l (State.writeLock h v l)))

/-! ### Reads (R126, R145, R146) -/

/-- FLAGS_READ (R145). -/
def execFlagsRead (d : DistrictId) (l : Lanes) (s : State) : Host.Outcome State Fault Refusal :=
  .next (s.running (State.readFlags d l))

/-- LAST_RESET_CAUSE_READ (R146). -/
def execLastResetCauseRead (l : Lanes) (s : State) : Host.Outcome State Fault Refusal :=
  .next (s.running (State.readResetCause l))

/-- HOST_INTENT_READ (R126, R132). -/
def execHostIntentRead (p : IntentPos) (l : Lanes) (s : State) : Host.Outcome State Fault Refusal :=
  .next (s.running (State.hostRead p l))

/-! ### The access path (R128, R129, R131, R165) -/

/-- HOST_ACCESS_BEGIN (R128). -/
def execHostAccessBegin (r : Request) (s : State) : Host.Outcome State Fault Refusal :=
  .next (s.running (State.beginAccess r))

/-- HOST_ACCESS_END (R128). -/
def execHostAccessEnd (s : State) : Host.Outcome State Fault Refusal :=
  .next (s.running State.endAccess)

/-- ACCESS_DROP (R129). -/
def execAccessDrop (s : State) : Host.Outcome State Fault Refusal :=
  .next (s.running State.dropAccess)

/-- CORRECTION_WORD_START (R131). -/
def execCorrectionWordStart (s : State) : Host.Outcome State Fault Refusal :=
  .next (s.running State.startCorrection)

/-- CORRECTION_WORD_COMPLETE (R131). -/
def execCorrectionWordComplete (s : State) : Host.Outcome State Fault Refusal :=
  .next (s.running State.completeCorrection)

/-- RING_WORD_START (R164). -/
def execRingWordStart (s : State) : Host.Outcome State Fault Refusal :=
  .next (s.running State.startRing)

/-- RING_WORD_COMPLETE (R165). -/
def execRingWordComplete (s : State) : Host.Outcome State Fault Refusal :=
  .next (s.running State.completeRing)

/-! ### Reset (R26, R134) -/

/-- FULL_RESET (R26, R103, R122, R134, R168), whether or not RESET was held before it. -/
def execFullReset (pins : Pins) (s : State) : Host.Outcome State Fault Refusal :=
  .next (s.fullReset pins)

/-- RESET_HELD (R134). -/
def execResetHeld (s : State) : Host.Outcome State Fault Refusal :=
  .next s.holdReset

end Sys2Proof.Machine
end

