-- ==== Sys2Proof/Machine/Clock.lean ====
section
/-! DEFINITION. One microsecond of time: the time base, the elapsed counts of the open slots, and the time
left of every running timer (R34, R106; logs 1, 2, 19). -/

namespace Sys2Proof.Machine

open Sys2Proof

/-- A running timer with a microsecond less to run. -/
def Timer.tick (t : Timer) : Timer := t.map (fun n => n - 1)

/-- A district's three timers. -/
def District.tick (x : District) : District :=
  { x with
    holdoffTimer := Timer.tick x.holdoffTimer
    provingTimer := Timer.tick x.provingTimer
    quietTimer := Timer.tick x.quietTimer }

/-- The elapsed count "rises by 1 each time the time base has advanced a further 1000 µs from the open time"
and stays at 65535 (R34). -/
def Slot.countElapsed (x : Slot) : Slot :=
  if x.elapsedMicros + 1 = 1000 then { x with elapsed := min (x.elapsed + 1) 65535, elapsedMicros := 0 }
  else { x with elapsedMicros := x.elapsedMicros + 1 }

/-- A slot: its gathering timer, and its elapsed count while it is GATHERING or RECOVERING. -/
def Slot.tick (x : Slot) : Slot :=
  if x.state.isOpen then ({ x with timer := Timer.tick x.timer }).countElapsed else x

/-- A feed's settle timer; an expiry after this microsecond is that of the timer as it runs (R95). -/
def Feed.tick (x : Feed) : Feed :=
  { x with settleTimer := Timer.tick x.settleTimer, settleRestarted := false }

/-- An engine's step timer. -/
def Engine.tick (x : Engine) : Engine := { x with timer := Timer.tick x.timer }

/-- One microsecond. -/
def State.tick (s : State) : State :=
  { s with
    timeBase := s.timeBase + 1
    districts := tabulate 32 (fun d => (s.dist d).tick)
    slots := tabulate 4 (fun n => (s.slot n).tick)
    feeds := tabulate 8 (fun k => (s.feed k).tick)
    engines := tabulate 4 (fun e => (s.engine e).tick)
    drainTimer := Timer.tick s.drainTimer }

/-- What the block does when no command waits: one microsecond passes, unless RESET is held (logs 1, 13). -/
def State.idleStep (s : State) : State := s.running State.tick

end Sys2Proof.Machine
end

