-- ==== Sys2Proof/Machine/Dispatch.lean ====
section
/-! DEFINITION. The dispatch: one arm per command, one call of its meaning. -/

namespace Sys2Proof.Machine

open Sys2Proof

def exec (i : Instr) (s : State) : Host.Outcome State Fault Refusal :=
  match i with
  | .fullReset pins => Sys2Proof.Machine.execFullReset pins s
  | .layoutReset => Sys2Proof.Machine.execLayoutReset s
  | .clearAllLockouts => Sys2Proof.Machine.execClearAllLockouts s
  | .lockFreeze => Sys2Proof.Machine.execLockFreeze s
  | .unknownCommandCode code => Sys2Proof.Machine.execUnknownCommandCode code s
  | .clearLockout d => Sys2Proof.Machine.execClearLockout d s
  | .clearFlags d => Sys2Proof.Machine.execClearFlags d s
  | .hostIntentWrite d v l => Sys2Proof.Machine.execHostIntentWrite d v l s
  | .districtWordWrite d w v l => Sys2Proof.Machine.execDistrictWordWrite d w v l s
  | .adjacencyWrite j v l => Sys2Proof.Machine.execAdjacencyWrite j v l s
  | .feedSettingWrite k r v l => Sys2Proof.Machine.execFeedSettingWrite k r v l s
  | .controlSettingWrite r v l => Sys2Proof.Machine.execControlSettingWrite r v l s
  | .attemptLimitWrite v l => Sys2Proof.Machine.execAttemptLimitWrite v l s
  | .faultMaskWrite v l => Sys2Proof.Machine.execFaultMaskWrite v l s
  | .ringSettingWrite r v l => Sys2Proof.Machine.execRingSettingWrite r v l s
  | .consumerIndexWrite v l => Sys2Proof.Machine.execConsumerIndexWrite v l s
  | .lockSetWrite h v l => Sys2Proof.Machine.execLockSetWrite h v l s
  | .flagsRead d l => Sys2Proof.Machine.execFlagsRead d l s
  | .lastResetCauseRead l => Sys2Proof.Machine.execLastResetCauseRead l s
  | .hostIntentRead p l => Sys2Proof.Machine.execHostIntentRead p l s
  | .hostAccessBegin r => Sys2Proof.Machine.execHostAccessBegin r s
  | .hostAccessEnd => Sys2Proof.Machine.execHostAccessEnd s
  | .accessDrop => Sys2Proof.Machine.execAccessDrop s
  | .correctionWordStart => Sys2Proof.Machine.execCorrectionWordStart s
  | .correctionWordComplete => Sys2Proof.Machine.execCorrectionWordComplete s
  | .ringWordStart => Sys2Proof.Machine.execRingWordStart s
  | .ringWordComplete => Sys2Proof.Machine.execRingWordComplete s
  | .holdAssert => Sys2Proof.Machine.execHoldAssert s
  | .holdRelease => Sys2Proof.Machine.execHoldRelease s
  | .boosterLineLow k => Sys2Proof.Machine.execBoosterLineLow k s
  | .boosterLineHigh k => Sys2Proof.Machine.execBoosterLineHigh k s
  | .settleExpiry k => Sys2Proof.Machine.execSettleExpiry k s
  | .drainExpiry => Sys2Proof.Machine.execDrainExpiry s
  | .holdoffExpiry d => Sys2Proof.Machine.execHoldoffExpiry d s
  | .provingExpiry d => Sys2Proof.Machine.execProvingExpiry d s
  | .quietExpiry d => Sys2Proof.Machine.execQuietExpiry d s
  | .gatheringTimerExpiry n => Sys2Proof.Machine.execGatheringTimerExpiry n s
  | .stepTimerExpiry e => Sys2Proof.Machine.execStepTimerExpiry e s
  | .poll => Sys2Proof.Machine.execPoll s
  | .report r => Sys2Proof.Machine.execReport r s
  | .missTimeout => Sys2Proof.Machine.execMissTimeout s
  | .missGap => Sys2Proof.Machine.execMissGap s
  | .resetHeld => Sys2Proof.Machine.execResetHeld s

end Sys2Proof.Machine
end

