-- ==== Sys2Proof/Machine/Step.lean ====
section
/-! DEFINITION. One step: the command at the front of the queue, or a microsecond of time. -/

namespace Sys2Proof.Machine

open Sys2Proof

/-- The command at the front of the queue is taken and run on the state with the queue's rest; with no
command waiting, a microsecond passes (log 1). -/
def step (s : State) : Host.Outcome State Fault Refusal :=
  match s.pending with
  | c :: rest => exec c { s with pending := rest }
  | [] => .next s.idleStep

/-- s with the command that a word spells put at the front of its queue; no word spells one (log 22). -/
def State.withFetchWord (s : State) (nbits w : Nat) : State :=
  match decodeTableWord nbits w with
  | some c => { s with pending := c :: s.pending }
  | .none => s

end Sys2Proof.Machine
end

