-- ==== Sys2Proof/Safety.lean ====
section
/-! DEFINITION. What a state must keep: the invariants that the statements name, and the conditions under
which a host access is taken at once. -/

namespace Sys2Proof.Machine

open Sys2Proof

/-! ### Invariants -/

/-- The static RAM is in its canonical form. -/
def MemoryCanonical (s : State) : Prop := Memory.wf s.mem = true

/-- "a feed's state is DOWN exactly when its line is low" (R91). -/
def LinesAgree (s : State) : Prop := ∀ k : FeedId, (s.feed k).state = .down ↔ s.line k = false

/-- "Each feed's stress account lies between 0 and 63" (R96). -/
def StressBounded (s : State) : Prop := ∀ k : FeedId, (s.feed k).stress ≤ 63

/-- "Every district's attempt count lies between 0 and the attempt limit in force" (R19). -/
def AttemptsWithinLimit (s : State) : Prop := ∀ d : DistrictId, (s.dist d).attempts ≤ s.control.limit

/-- "A district appears in the restart queue at most once, and it appears there exactly when its state is
QUEUED" (R64). -/
def QueueAgrees (s : State) : Prop :=
  s.queue.Nodup ∧ ∀ d : DistrictId, d ∈ s.queue ↔ (s.dist d).state = .queued

/-- Each RAMPING district "is held by exactly one BUSY ramp engine, and each BUSY engine holds exactly one
RAMPING district" (R74). -/
def EnginesAgree (s : State) : Prop :=
  (∀ e d, (s.engine e).district = some d → (s.dist d).state = .ramping)
    ∧ (∀ d, (s.dist d).state = .ramping → ∃ e, (s.engine e).district = some d)
    ∧ ∀ e f d, (s.engine e).district = some d → (s.engine f).district = some d → e = f

/-- The restart queue and the ramp engines hold exactly the districts whose states say so (R64, R74). -/
def RestartAgrees (s : State) : Prop := QueueAgrees s ∧ EnginesAgree s

/-- The marks by strictly rising offset: a position is marked at most once, and the first is the one "at the
lowest offset" (R130, R131). -/
def MarksInOrder (s : State) : Prop :=
  s.corrections.Pairwise (fun p q => positionOffset p < positionOffset q)

/-- An access is WAITING only while the face carries an own word, and the face is HOST exactly while an access
is ON_FACE (R123, R128). -/
def PathAgrees (s : State) : Prop :=
  ((∃ r, s.access = .waiting r) → s.face ≠ .idle ∧ s.face ≠ .host)
    ∧ (s.face = .host ↔ ∃ r, s.access = .onFace r)

/-- "A district is in LOCKED exactly when it is in the effective lock set" (R153). -/
def LocksAgree (s : State) : Prop :=
  ∀ d : DistrictId, (s.dist d).state = .locked ↔ s.control.lockSet.getLsbD d.val = true

/-! ### Conditions -/

/-- RESET is not held and the memory face is IDLE: a host access that needs the face is taken at once. -/
abbrev State.faceFree (s : State) : Prop := s.inReset = false ∧ s.face = .idle

/-- d's context passes its check (R21), or is not checked. -/
abbrev State.passes (s : State) (d : DistrictId) : Prop := s.checkFails d = false

/-- The word an own word in flight writes (R128). -/
def State.ownWordAddress (s : State) : Option WordAddr :=
  match s.face with
  | .correction p _ => some (addressOf s.windowBase p)
  | .ring a _ => some a
  | .idle => .none
  | .host => .none

/-- Every byte outside the word at a (or every byte, where none is given) reads in t as in s. -/
def SameBytesOutside (s t : State) (a : Option WordAddr) : Prop :=
  ∀ x : Nat, (∀ w, a = some w → x ≠ 2 * w.toNat ∧ x ≠ 2 * w.toNat + 1) →
    Memory.byte t.mem x = Memory.byte s.mem x

/-! ### What the host reads, the suspect gate and attribution, in the spec's own terms -/

/-- A read of the word at an even offset of the image is SERVED when it begins, with w on its lanes, and changes
nothing else (R126, R127). -/
def ReadsAs (s : State) (offset : Nat) (w : Word) : Prop :=
  ∀ (l : Lanes) (r : Request),
    r = { addr := BitVec.ofNat 19 (windowStart s.windowBase + offset / 2), op := .read, lanes := l } →
    exec (.hostAccessBegin r) s = .next { s with access := .served r, readData := onLanes l w }

/-- The member entry shuts its slot's suspect gate (R46). -/
def ShutsGate (s : State) (m : Member) : Prop :=
  ((s.dist m.district).state = .ramping ∨ (s.dist m.district).state = .proving
      ∨ (s.dist m.district).state = .queued ∧ (s.dist m.district).mark = true) ∧ m.role ≠ .none
    ∨ ((s.dist m.district).state = .holdoff ∨ (s.dist m.district).state = .reversing)
      ∧ (m.role = .follower ∨ m.role = .flip)

/-- The queue is `before ++ after` and d's place by a normal entry is between them: after the last entry whose
priority is equal to or lower in number than its own (R65). -/
def NormalPlace (s : State) (d : DistrictId) (before after : List DistrictId) : Prop :=
  s.queue = before ++ after ∧ (∀ q ∈ after, (s.dist d).priority < (s.dist q).priority)
    ∧ ∀ q ∈ before.getLast?, (s.dist q).priority ≤ (s.dist d).priority

/-- Two districts are adjacent, by a valid entry that pairs them, and on different feeds (R41). -/
def Bridged (s : State) (x y : DistrictId) : Prop :=
  (∃ j : Fin 48, s.adjacency[j].getLsbD 15 = true
      ∧ (field s.adjacency[j] 0 6 = x.val ∧ field s.adjacency[j] 8 6 = y.val
        ∨ field s.adjacency[j] 0 6 = y.val ∧ field s.adjacency[j] 8 6 = x.val))
    ∧ (s.dist x).feed ≠ (s.dist y).feed

/-- Stamp order: "each test deciding only when the earlier tests leave a tie" (R40). -/
def StampBefore (anchor : Stamp) (x y : Member) : Prop :=
  x.saturated = false ∧ y.saturated = true
    ∨ x.saturated = y.saturated
      ∧ ((x.stamp - anchor).toInt < (y.stamp - anchor).toInt
        ∨ (x.stamp - anchor).toInt = (y.stamp - anchor).toInt
          ∧ (y.cause.priority < x.cause.priority
            ∨ x.cause.priority = y.cause.priority ∧ x.district < y.district))

/-- A non-withdrawn member of the list with cause UNDERVOLTAGE on feed k (R42). -/
def SagCounts (s : State) (k : FeedId) (m : Member) : Bool :=
  !m.withdrawn && m.cause == .undervoltage && (s.dist m.district).feed == k

/-- Feed k is sagged by a member list: its count is at least its sag threshold (R42). -/
def Sagged (s : State) (l : List Member) (k : FeedId) : Prop :=
  field (s.feed k).sagThreshold 0 4 ≤ (l.filter (SagCounts s k)).length

/-- District d is blamed: on a sagged feed it is the counted member with was-proving set "that stands latest in
the feed's energise history" (R42). -/
def Blamed (s : State) (l : List Member) (d : DistrictId) : Prop :=
  ∃ (k : FeedId) (older newer : List DistrictId), Sagged s l k
    ∧ (∃ m ∈ l, m.district = d ∧ SagCounts s k m = true ∧ m.wasProving = true)
    ∧ (s.feed k).history = older ++ d :: newer
    ∧ ∀ m ∈ l, SagCounts s k m = true → m.wasProving = true → m.district ∉ newer


/-- d's place in the queue `before ++ after` by a return ahead of its priority: after the last entry whose
priority is lower in number than its own (R66). -/
def ReturnPlace (s : State) (d : DistrictId) (before after : List DistrictId) : Prop :=
  s.queue = before ++ after ∧ (∀ q ∈ after, (s.dist d).priority ≤ (s.dist q).priority)
    ∧ ∀ q ∈ before.getLast?, (s.dist q).priority < (s.dist d).priority

/-! ### Check errors and scans, in the spec's own terms -/

/-- The engine that holds d in u, if one does, is IDLE in t, its feed's engaged count is 1 lower, and nothing else
of the engines and the feeds has changed (R81). -/
def EngineFreed (u t : State) (d : DistrictId) : Prop :=
  (u.engineOf d = .none → t.engines = u.engines ∧ t.feeds = u.feeds)
    ∧ ∀ e : EngineId, u.engineOf d = some e →
      t.engine e = { u.engine e with district := .none, index := 0, stalls := 0, timer := .none }
      ∧ (∀ f : EngineId, f ≠ e → t.engine f = u.engine f)
      ∧ t.feed (u.engine e).feed = { u.feed (u.engine e).feed with
          engaged := (u.feed (u.engine e).feed).engaged - 1 }
      ∧ ∀ k : FeedId, k ≠ (u.engine e).feed → t.feed k = u.feed k

/-- t is s with the check error of d taken, its notice and the scan not yet (R22, R133): unless LOCKED, d is in
CHECK_HOLD, out of the queue and of its engine with no attempt counted; the context-invalid flag is set, the
reload set empty, CHECK_ERROR latched, and d's marks are removed; a solitary role ends with HOLDOFF and with the
flip (R35). -/
def CheckErrorTaken (s t : State) (d : DistrictId) : Prop :=
  (∀ p : IntentPos, p ∈ t.corrections ↔ p ∈ s.corrections ∧ ∀ w : Fin 5, p ≠ .district d w)
    ∧ ((s.dist d).state = .locked → t = { s with
        corrections := t.corrections
        districts := put s.districts d { s.dist d with
          invalid := true
          reload := 0
          flags := { (s.dist d).flags with checkError := true } } })
    ∧ ((s.dist d).state ≠ .locked → EngineFreed s t d ∧ t = { s with
        corrections := t.corrections
        engines := t.engines
        feeds := t.feeds
        queue := s.queue.erase d
        districts := put s.districts d { s.dist d with
          state := .checkHold
          level := 0
          mark := false
          role := if (s.dist d).incidentSlot = .none
              ∧ ((s.dist d).state = .holdoff ∨ (s.dist d).state = .reversing) then .none else (s.dist d).role
          holdoffTimer := .none
          provingTimer := .none
          quietTimer := .none
          invalid := true
          reload := 0
          flags := { (s.dist d).flags with checkError := true } } })

/-- The host write c to intent word w of d, whose context fails its check, is taken after the error, "as a write
reaching a district in CHECK_HOLD", and its word is the first of the reload set (R22). -/
def TakenAfterCheckError (s : State) (d : DistrictId) (w : Fin 5) (c : Instr) : Prop :=
  ∃ u t : State, CheckErrorTaken s u d ∧ exec c s = exec c (s.finish d u) ∧ exec c s = .next t
    ∧ (t.dist d).flags.checkError = true
    ∧ (QueueAgrees s → (t.dist d).invalid = true ∧ (t.dist d).reload = BitVec.twoPow 5 w.val
      ∧ (t.dist d).state = (if (s.dist d).state = .locked then .locked else .checkHold)
      ∧ (w = 0 → (t.dist d).intent = .off))

/-- The four tests of R69 on a queued district. -/
def Admissible (s : State) (d : DistrictId) : Prop :=
  s.hold = false ∧ (s.feed (s.dist d).feed).state = .up
    ∧ (s.feed (s.dist d).feed).engaged < field (s.feed (s.dist d).feed).concurrency 0 3
    ∧ (s.feed (s.dist d).feed).stress + field (s.dist d).words[(3 : Fin 5)] 0 4
        ≤ field (s.feed (s.dist d).feed).ceiling 0 6

/-- e is the lowest-numbered IDLE engine, and d the first admissible entry from the head of the queue (R70). -/
def GrantsNext (s : State) (e : EngineId) (d : DistrictId) : Prop :=
  ((s.engine e).district = .none ∧ ∀ f : EngineId, f < e → (s.engine f).district ≠ .none)
    ∧ Admissible s d
    ∧ ∃ before after : List DistrictId, s.queue = before ++ d :: after ∧ ∀ q ∈ before, ¬Admissible s q

/-- u is s with steps 1 to 6 of the grant of engine e to d taken (R71): with two or more ramp steps the first is
commanded, with one step the step timer does not run (R76). -/
def GrantTaken (s : State) (e : EngineId) (d : DistrictId) (u : State) : Prop :=
  u = { s with
    queue := s.queue.erase d
    engines := put s.engines e
      { district := some d
        feed := (s.dist d).feed
        steps := (s.dist d).steps
        interval := (s.dist d).interval
        ceiling := (s.dist d).ceiling
        index := 1
        stalls := 0
        timer := if 2 ≤ (s.dist d).steps then some ((s.dist d).interval * 1000) else .none
        reading := .none }
    districts := put s.districts d { s.dist d with
      state := .ramping
      level := if 2 ≤ (s.dist d).steps then 16 * 1 / (s.dist d).steps else (s.dist d).level
      holdoffTimer := .none
      provingTimer := .none
      quietTimer := .none
      polled := if 2 ≤ (s.dist d).steps then false else (s.dist d).polled }
    feeds := put s.feeds (s.dist d).feed { s.feed (s.dist d).feed with
      engaged := (s.feed (s.dist d).feed).engaged + 1
      stress := (s.feed (s.dist d).feed).stress + field (s.dist d).words[(3 : Fin 5)] 0 4
      history := if (s.feed (s.dist d).feed).history.length < 4
        then (s.feed (s.dist d).feed).history ++ [d] else (s.feed (s.dist d).feed).history.drop 1 ++ [d] } }

/-- w is v with the ramp of d, on engine e of feed k, complete: FULL, PROVING, the attempt counted if the mark is
on, the engine freed (R76, R81, R86). -/
def RampCompleted (v : State) (e : EngineId) (k : FeedId) (d : DistrictId) (w : State) : Prop :=
  w = { v with
    engines := put v.engines e
      { v.engine e with district := .none, index := 0, stalls := 0, timer := .none }
    feeds := put v.feeds k { v.feed k with engaged := (v.feed k).engaged - 1 }
    districts := put v.districts d { v.dist d with
      state := .proving
      level := 16
      attempts := if (v.dist d).mark then min ((v.dist d).attempts + 1) v.control.limit else (v.dist d).attempts
      holdoffTimer := .none
      provingTimer := some (field v.control.provingWindow 0 8 * 10000)
      quietTimer := .none } }

/-- Engine e is offered to d, and t follows (R71, R72, R76). A check error takes the grant's place, with the engine
left IDLE and the feeds as they were; with one ramp step the ramp completes at the grant; each change of d's
state is followed by its notice. -/
def Granted (s : State) (e : EngineId) (d : DistrictId) (t : State) : Prop :=
  (¬s.passes d → ∃ u : State, CheckErrorTaken s u d ∧ u.engines = s.engines ∧ u.feeds = s.feeds
      ∧ t = s.notify d u)
    ∧ (s.passes d → 2 ≤ (s.dist d).steps → ∃ u : State, GrantTaken s e d u ∧ t = s.notify d u)
    ∧ (s.passes d → (s.dist d).steps ≤ 1 → ∃ u v w : State, GrantTaken s e d u ∧ v = s.notify d u
      ∧ RampCompleted v e (s.dist d).feed d w ∧ t = v.notify d w)

/-- A scan from s ends in t (R70): the first admissible entry takes the lowest IDLE engine, and the dispatcher
scans again from the head, "until no engine is IDLE or no entry is admissible". -/
inductive ScanEnds : State → State → Prop where
  | ends (s : State) (h : (∀ e : EngineId, (s.engine e).district ≠ .none) ∨ ∀ d ∈ s.queue, ¬Admissible s d) :
      ScanEnds s s
  | grants (s t u : State) (e : EngineId) (d : DistrictId) (h : GrantsNext s e d) (hg : Granted s e d t)
      (ht : ScanEnds t u) : ScanEnds s u

/-! ### REPORTs and cuts, in the spec's own terms -/

/-- d, on channel c, is the only district mapped to node k (R107). -/
def AloneAt (s : State) (k : NodeId) (c : ChannelId) (d : DistrictId) : Prop :=
  (s.dist d).channel = c ∧ ∀ e : DistrictId, ((s.dist e).invalid = false ∧ (s.dist e).node = some k) ↔ e = d

/-- A good REPORT with RESTARTED clear answers the exchange x, which does not end a round (R113, R116). -/
def GoodAnswer (s : State) (x : Exchange) (r : Report) : Prop :=
  s.inReset = false ∧ s.exchange = some x ∧ x.node ≠ 7 ∧ goodReport r x.node = true ∧ reportRestarted r = false

/-- u is s with the exchange x over, its node's entry stored, and d given the current of y; a RAMPING district
polled with its own command gives its engine the fresh reading (R77, R119). -/
def ReadingTaken (s : State) (x : Exchange) (d : DistrictId) (y : ChannelReport) (u : State) : Prop :=
  u = { s with
      exchange := .none
      nextNode := x.node + 1
      nodes := u.nodes
      engines := u.engines
      districts := put s.districts d { s.dist d with current := y.current } }
    ∧ ∀ e : EngineId, u.engine e =
        if (s.dist d).state = .ramping ∧ (s.dist d).polled = true ∧ s.engineOf d = some e then
          { s.engine e with reading := some y.current }
        else s.engine e

/-- Step 1 of R32, from u to t: the engine that holds d, if one does, is freed, and then the attempt is counted
if the mark is on. -/
def LeavesRamp (u t : State) (d : DistrictId) : Prop :=
  EngineFreed u t d
    ∧ (u.engineOf d = .none → (t.dist d).attempts = (u.dist d).attempts)
    ∧ ∀ e : EngineId, u.engineOf d = some e →
      (t.dist d).attempts = (if (u.dist d).mark then
        min ((u.dist d).attempts + 1) u.control.limit else (u.dist d).attempts)

/-- An entry of d with this stamp qualifies for the GATHERING incident of slot n by time and place: the distance
on the wrapping time base is at most the gathering window, and d shares its feed with a member or an adjacency
entry pairs them (R33). -/
def Qualifies (s : State) (d : DistrictId) (stamp : Stamp) (n : SlotId) : Prop :=
  (s.slot n).state = .gathering
    ∧ (if (stamp - (s.slot n).anchor).toNat < 2 ^ 23 then (stamp - (s.slot n).anchor).toNat
        else 2 ^ 24 - (stamp - (s.slot n).anchor).toNat) ≤ field s.control.gatheringWindow 0 5 * 1000
    ∧ ∃ m ∈ (s.slot n).members, (s.dist m.district).feed = (s.dist d).feed
      ∨ ∃ j : Fin 48, s.adjacency[j].getLsbD 15 = true
        ∧ (field s.adjacency[j] 0 6 = d.val ∧ field s.adjacency[j] 8 6 = m.district.val
          ∨ field s.adjacency[j] 0 6 = m.district.val ∧ field s.adjacency[j] 8 6 = d.val)

/-- Slot n is the one joined: of those that qualify the one whose anchor is earliest, the larger signed offset
being the earlier anchor, and of two with one anchor the lower slot (R33). -/
def Joins (s : State) (d : DistrictId) (stamp : Stamp) (n : SlotId) : Prop :=
  Qualifies s d stamp n ∧ ∀ m : SlotId, m ≠ n → Qualifies s d stamp m →
    (stamp - (s.slot m).anchor).toInt < (stamp - (s.slot n).anchor).toInt
      ∨ (stamp - (s.slot m).anchor).toInt = (stamp - (s.slot n).anchor).toInt ∧ n < m

/-- RAMPING, PROVING, LIVE or REVERSING (R5). -/
def Energised (s : State) (d : DistrictId) : Prop :=
  (s.dist d).state = .ramping ∨ (s.dist d).state = .proving ∨ (s.dist d).state = .live
    ∨ (s.dist d).state = .reversing

/-- d in LOCKOUT as it is entered: LOCKOUT_ENTERED latched, the intent OFF in the copy and word 0 marked, on
the valid context of d (R43). -/
def LockedOut (t : State) (d : DistrictId) : Prop :=
  (t.dist d).state = .lockout ∧ (t.dist d).level = 0 ∧ (t.dist d).flags.lockoutEntered = true
    ∧ (t.dist d).intent = .off ∧ IntentPos.district d 0 ∈ t.corrections

end Sys2Proof.Machine
end

