-- ==== Sys2Proof/Certificates/Slice0/Obligations.lean ====
section
/-! DEFINITION. The statements for the provers. -/

open Sys2Proof Sys2Proof.Machine

/-- A step with a command at the front of the queue is exec of that command on the queue's rest. For every state
s whose queue is c :: rest, step s is exec c of s with the queue rest. The queue is the model's own
convention (log 1). -/
def Obligations.StepRunsFrontCommand : Prop :=
  ∀ (s : State) (c : Instr) (rest : List Instr), s.pending = c :: rest →
    step s = exec c { s with pending := rest }

/-- With no command waiting and RESET not held, a step is one microsecond: time base, elapsed counts, timers.
For every state with an empty queue and RESET not held, step answers next t: the time base rises by 1 modulo
2^24; every running timer (hold-off, proving, quiet, settle, step, drain, and the gathering timer of an open
slot) has one microsecond less left; the elapsed count of an open slot rises after each 1000 microseconds
and stays at 65535; a settle timer that a sag notice restarted may expire again; everything else of every
context, slot, feed and engine, and every other part of the state, stands. That an empty queue is a tick of
one microsecond is the model's choice (log 1), and so is that a timer holds its time left (log 2). -/
def Obligations.IdleStepAdvancesOneMicrosecond : Prop :=
  ∀ s : State, s.pending = [] → s.inReset = false →
    ∃ t : State, step s = .next t ∧ t.timeBase = s.timeBase + 1
      ∧ t.drainTimer = s.drainTimer.map (fun n => n - 1)
      ∧ (∀ n : SlotId, (s.slot n).state.isOpen = true → (s.slot n).elapsedMicros = 999 →
          t.slot n = { s.slot n with
            timer := (s.slot n).timer.map (fun n => n - 1)
            elapsed := min ((s.slot n).elapsed + 1) 65535
            elapsedMicros := 0 })
      ∧ (∀ n : SlotId, (s.slot n).state.isOpen = true → (s.slot n).elapsedMicros ≠ 999 →
          t.slot n = { s.slot n with
            timer := (s.slot n).timer.map (fun n => n - 1)
            elapsedMicros := (s.slot n).elapsedMicros + 1 })
      ∧ (∀ n : SlotId, (s.slot n).state.isOpen = false → t.slot n = s.slot n)
      ∧ (∀ d : DistrictId, t.dist d =
          { s.dist d with
            holdoffTimer := (s.dist d).holdoffTimer.map (fun n => n - 1)
            provingTimer := (s.dist d).provingTimer.map (fun n => n - 1)
            quietTimer := (s.dist d).quietTimer.map (fun n => n - 1) })
      ∧ (∀ k : FeedId, t.feed k =
          { s.feed k with
            settleTimer := (s.feed k).settleTimer.map (fun n => n - 1)
            settleRestarted := false })
      ∧ (∀ e : EngineId, t.engine e = { s.engine e with timer := (s.engine e).timer.map (fun n => n - 1) })
      ∧ t = { s with
          timeBase := t.timeBase
          drainTimer := t.drainTimer
          slots := t.slots
          districts := t.districts
          feeds := t.feeds
          engines := t.engines }

/-- While RESET is held every command but FULL_RESET and RESET_HELD changes nothing. For every state in which
RESET is held and every command other than FULL_RESET and RESET_HELD, exec answers next of the state
unchanged. R134 says it of host accesses; that it holds of every command is the model's reading (log 13). -/
def Obligations.HeldResetTakesNoCommand : Prop :=
  ∀ (s : State) (c : Instr), s.inReset = true → (∀ p : Pins, c ≠ .fullReset p) → c ≠ .resetHeld →
    exec c s = .next s

/-- RESET held: no access, faces idle, no WAIT, FAULT released, exchange abandoned; nothing else changes. For
every state, RESET_HELD answers next t: the access is NONE, the memory face IDLE, no data driven, WAIT not
asserted, FAULT released, the exchange abandoned. Contexts, slots and the id counter, feeds, timers,
engines, nodes and the next address, control words, marks, the Ring Writer and the queue of commands stand:
that they stand until the reset ends is the model's reading (log 13). Every byte of memory outside the word
of an own word in flight stands; that word's content is a free value (log 10). -/
def Obligations.ResetHeldAbandonsAccesses : Prop :=
  ∀ s : State, ∃ t : State, exec .resetHeld s = .next t ∧ t.inReset = true ∧ t.access = .none
    ∧ t.face = .idle ∧ t.readData = { lower := .none, upper := .none } ∧ t.waitAsserted = false
    ∧ t.faultAsserted = false ∧ t.exchange = .none ∧ t.districts = s.districts ∧ t.slots = s.slots
    ∧ t.feeds = s.feeds ∧ t.engines = s.engines ∧ t.nodes = s.nodes ∧ t.control = s.control
    ∧ t.adjacency = s.adjacency ∧ t.queue = s.queue ∧ t.corrections = s.corrections ∧ t.ring = s.ring
    ∧ t.freeze = s.freeze ∧ t.hold = s.hold ∧ t.lines = s.lines ∧ t.timeBase = s.timeBase
    ∧ t.nextId = s.nextId ∧ t.nextNode = s.nextNode ∧ t.drainTimer = s.drainTimer ∧ t.pending = s.pending
    ∧ t.windowBase = s.windowBase ∧ t.lastCommand = s.lastCommand ∧ t.lastResetCause = s.lastResetCause
    ∧ SameBytesOutside s t s.ownWordAddress

/-- A full reset, from any state, gives every block its full-reset values with the pins sampled. For every state
and pins, FULL_RESET answers next t: every context at the defaults of R26, every slot FREE and the id
counter 0, queue empty and engines IDLE, each feed DOWN or SETTLING by its line, nodes ABSENT and polling at
address 1 with time base 0, lock set empty and freeze clear, every intent word marked, the access and the
face idle, the window base and HOLD sampled, the Ring Writer empty, the last reset cause FULL. Memory stands
outside an own word cut off. That the bits of intent words that carry no field are 0 is the model's choice
(log 31). -/
def Obligations.FullResetSetsEveryBlock : Prop :=
  ∀ (s : State) (pins : Pins), ∃ t : State, exec (.fullReset pins) s = .next t
    ∧ (∀ d : DistrictId, (t.dist d).words = #v[0x0000, 0x0000, 0x0030, 0x0804, 0x6404]
        ∧ (t.dist d).state = .off ∧ (t.dist d).polarity = .a ∧ (t.dist d).attempts = 0
        ∧ (t.dist d).current = 0 ∧ (t.dist d).level = 0 ∧ (t.dist d).lastCause = .none
        ∧ (t.dist d).lastIncident = .none ∧ (t.dist d).incidentSlot = .none ∧ (t.dist d).role = .none
        ∧ (t.dist d).mark = false ∧ (t.dist d).invalid = false ∧ (t.dist d).reload = 0
        ∧ (t.dist d).flags.any = false ∧ (t.dist d).codeAgrees = true ∧ (t.dist d).holdoffTimer = .none
        ∧ (t.dist d).provingTimer = .none ∧ (t.dist d).quietTimer = .none)
    ∧ (∀ n : SlotId, (t.slot n).state = .free ∧ (t.slot n).members = [] ∧ (t.slot n).suspects = []
        ∧ (t.slot n).restored = 0 ∧ (t.slot n).lockouts = 0 ∧ (t.slot n).timer = .none
        ∧ (t.slot n).roundBegun = false ∧ (t.slot n).roundSeen = false ∧ (t.slot n).anySaturated = false)
    ∧ t.nextId = 0 ∧ t.queue = []
    ∧ (∀ e : EngineId, (t.engine e).district = .none ∧ (t.engine e).index = 0 ∧ (t.engine e).stalls = 0
        ∧ (t.engine e).timer = .none)
    ∧ (∀ k : FeedId, (t.feed k).state = (if pins.boosters.getLsbD k.val then FeedState.settling else .down)
        ∧ (t.feed k).settleTimer = (if pins.boosters.getLsbD k.val then some 2000000 else .none)
        ∧ (t.feed k).settleRestarted = false ∧ t.line k = pins.boosters.getLsbD k.val ∧ (t.feed k).stress = 0 ∧ (t.feed k).engaged = 0
        ∧ (t.feed k).history = [] ∧ (t.feed k).ceiling = 24 ∧ (t.feed k).concurrency = 2
        ∧ (t.feed k).sagThreshold = 3 ∧ (t.feed k).settleTime = 20)
    ∧ t.drainTimer = some 250000 ∧ t.timeBase = 0 ∧ t.nextNode = 0 ∧ t.exchange = .none
    ∧ (∀ k : NodeId, (t.node k).state = .absent ∧ (t.node k).misses = 0 ∧ (t.node k).restarted = false
        ∧ ∀ c : ChannelId, t.channel k c = { output := .off, newCut := false })
    ∧ (∀ j : Fin 48, t.adjacency[j] = 0)
    ∧ t.control = { gatheringWindow := 4, provingWindow := 50, quietInterval := 60, holdoffBase := 10,
                    attemptLimit := 3, drainPeriod := 25, faultMask := 0, ringBaseLow := 0, ringBaseHigh := 0,
                    ringCapacity := 16, consumerIndex := 0, lockSetLow := 0, lockSetHigh := 0 }
    ∧ t.hold = pins.hold ∧ t.freeze = false ∧ t.windowBase = pins.straps ∧ t.access = .none
    ∧ t.face = .idle ∧ (∀ p : IntentPos, t.marked p = true)
    ∧ t.ring = { records := [], closing := [], missed := 0, solitaryLoss := false, layoutReset := false,
                 producer := 0, progress := .none }
    ∧ t.lastCommand = 0 ∧ t.lastResetCause = .full ∧ t.inReset = false ∧ t.pending = s.pending
    ∧ SameBytesOutside s t s.ownWordAddress

/-- LAYOUT_RESET brings every context to rest as R27 gives, and keeps the rest of it. For every state with RESET
not held, LAYOUT_RESET answers next t in which each district is OFF unless it was LOCKED, UNREACHABLE or
CHECK_HOLD; an ON or ON_MANUAL intent of a valid context is OFF and word 0 marked; an invalid context keeps
its words and gains no mark; count 0, mark off, timers stopped, incident slot and role none, level 0 where
OFF; polarity, words 1 to 4, flags, current, last cut cause, last incident id, context-invalid and reload
set kept. -/
def Obligations.LayoutResetRestsEveryContext : Prop :=
  ∀ s : State, s.inReset = false → ∃ t : State, exec .layoutReset s = .next t
    ∧ ∀ d : DistrictId,
      (t.dist d).state = (if (s.dist d).state = .locked ∨ (s.dist d).state = .unreachable
          ∨ (s.dist d).state = .checkHold then (s.dist d).state else .off)
      ∧ (t.dist d).attempts = 0 ∧ (t.dist d).mark = false ∧ (t.dist d).holdoffTimer = .none
      ∧ (t.dist d).provingTimer = .none ∧ (t.dist d).quietTimer = .none
      ∧ (t.dist d).incidentSlot = .none ∧ (t.dist d).role = .none
      ∧ (t.dist d).level = (if (t.dist d).state = .off then 0 else (s.dist d).level)
      ∧ (t.dist d).polarity = (s.dist d).polarity ∧ (t.dist d).flags = (s.dist d).flags
      ∧ (t.dist d).current = (s.dist d).current ∧ (t.dist d).lastCause = (s.dist d).lastCause
      ∧ (t.dist d).lastIncident = (s.dist d).lastIncident ∧ (t.dist d).invalid = (s.dist d).invalid
      ∧ (t.dist d).reload = (s.dist d).reload
      ∧ (∀ w : Fin 5, w ≠ 0 → (t.dist d).words[w] = (s.dist d).words[w])
      ∧ (if (s.dist d).invalid = false ∧ ((s.dist d).intent = .on ∨ (s.dist d).intent = .onManual) then
          (t.dist d).intent = .off ∧ IntentPos.district d 0 ∈ t.corrections
        else (t.dist d).words[(0 : Fin 5)] = (s.dist d).words[(0 : Fin 5)])
      ∧ ((s.dist d).invalid = true →
          ∀ w : Fin 5, IntentPos.district d w ∈ t.corrections → IntentPos.district d w ∈ s.corrections)

/-- LAYOUT_RESET discards slots, empties queue and engines, zeroes engaged counts, and keeps everything else.
For every state with RESET not held, LAYOUT_RESET answers next t: every slot FREE with nothing in it, one
raise of the missed count (to at most 255) for each slot that was not FREE, the waiting list empty, the
layout-reset-preceded flag set, the id counter kept; queue empty, engines IDLE; each feed's engaged count 0
and history empty, its state, account, settings and timer kept; last reset cause LAYOUT and last command
0x4C01; link, access path, control words, adjacency, lock freeze, HOLD, pending records, ring progress and
memory kept. -/
def Obligations.LayoutResetRestsEveryUnit : Prop :=
  ∀ s : State, s.inReset = false → ∃ t : State, exec .layoutReset s = .next t
    ∧ (∀ n : SlotId, (t.slot n).state = .free
        ∧ ((s.slot n).state ≠ .free → (t.slot n).members = [] ∧ (t.slot n).suspects = []
            ∧ (t.slot n).restored = 0 ∧ (t.slot n).lockouts = 0 ∧ (t.slot n).timer = .none
            ∧ (t.slot n).roundBegun = false ∧ (t.slot n).roundSeen = false))
    ∧ t.openCount = 0 ∧ t.nextId = s.nextId ∧ t.ring.closing = [] ∧ t.ring.layoutReset = true
    ∧ (s.ring.missed ≤ 255 →
        t.ring.missed =
          min (s.ring.missed + ((indices 4).filter (fun n => (s.slot n).state != .free)).length) 255)
    ∧ t.ring.records = s.ring.records ∧ t.ring.producer = s.ring.producer
    ∧ t.ring.progress = s.ring.progress ∧ t.ring.solitaryLoss = s.ring.solitaryLoss ∧ t.queue = []
    ∧ (∀ e : EngineId, (t.engine e).district = .none ∧ (t.engine e).index = 0 ∧ (t.engine e).stalls = 0
        ∧ (t.engine e).timer = .none)
    ∧ (∀ k : FeedId, t.feed k = { s.feed k with engaged := 0, history := [] })
    ∧ t.lastResetCause = .layout ∧ t.lastCommand = 0x4C01 ∧ t.drainTimer = s.drainTimer
    ∧ t.timeBase = s.timeBase ∧ t.nodes = s.nodes ∧ t.nextNode = s.nextNode ∧ t.exchange = s.exchange
    ∧ t.windowBase = s.windowBase ∧ t.access = s.access ∧ t.face = s.face ∧ t.control = s.control
    ∧ t.adjacency = s.adjacency ∧ t.freeze = s.freeze ∧ t.hold = s.hold ∧ t.lines = s.lines
    ∧ (∀ p : IntentPos, p ∈ s.corrections → p ∈ t.corrections) ∧ t.mem = s.mem

/-- CLEAR_LOCKOUT takes a LOCKOUT district to OFF with count 0, and has no effect in any other state. For every
state with RESET not held and every district whose context passes its check: in LOCKOUT, CLEAR_LOCKOUT
answers next of the end of a claim at d (notice and scan) on the state whose only change is d: OFF, attempt
count 0, level 0, mark off, timers stopped; LOCKOUT_ENTERED and every other field stand. In any other state
it answers next of the state unchanged. -/
def Obligations.ClearLockoutFreesLockedOutDistrict : Prop :=
  ∀ (s : State) (d : DistrictId), s.inReset = false → s.passes d →
    ((s.dist d).state = .lockout →
      exec (.clearLockout d) s = .next (s.finish d (s.modDist d (fun x =>
        { x with
          state := .off
          attempts := 0
          level := 0
          mark := false
          holdoffTimer := .none
          provingTimer := .none
          quietTimer := .none }))))
    ∧ ((s.dist d).state ≠ .lockout → exec (.clearLockout d) s = .next s)

/-- After CLEAR_ALL_LOCKOUTS no district is in LOCKOUT, and the last-command word shows it taken. For every
state with RESET not held, CLEAR_ALL_LOCKOUTS answers next t: no district is in LOCKOUT and the last-command
word is 0x4C02. Control words, adjacency, nodes, lines and memory stand in every case. Where every context
passes its check and no LOCKOUT district is in an incident, each LOCKOUT district is OFF with count 0, level
0, mark off and timers stopped, and every other district and everything else stands but the model's counter
of free orders (log 5). -/
def Obligations.ClearAllLockoutsLeavesNoLockout : Prop :=
  ∀ s : State, s.inReset = false → ∃ t : State, exec .clearAllLockouts s = .next t
    ∧ (∀ d : DistrictId, (t.dist d).state ≠ .lockout) ∧ t.lastCommand = 0x4C02
    ∧ t.control = s.control ∧ t.adjacency = s.adjacency ∧ t.nodes = s.nodes ∧ t.lines = s.lines
    ∧ t.mem = s.mem
    ∧ ((∀ d : DistrictId, s.passes d) →
        (∀ d : DistrictId, (s.dist d).state = .lockout → (s.dist d).incidentSlot = .none) →
        (∀ d : DistrictId, (s.dist d).state = .lockout → t.dist d =
            { s.dist d with
              state := .off
              attempts := 0
              level := 0
              mark := false
              holdoffTimer := .none
              provingTimer := .none
              quietTimer := .none })
        ∧ (∀ d : DistrictId, (s.dist d).state ≠ .lockout → t.dist d = s.dist d)
        ∧ t = { s with districts := t.districts, choices := t.choices, lastCommand := 0x4C02 })

/-- LOCK_FREEZE sets the freeze flag and the last-command word, and changes nothing else. For every state with
RESET not held, LOCK_FREEZE answers next of the state with the lock freeze flag set and the last-command
word 0x4C03. -/
def Obligations.LockFreezeSetsFlagAlone : Prop :=
  ∀ s : State, s.inReset = false →
    exec .lockFreeze s = .next { s with freeze := true, lastCommand := 0x4C03 }

/-- The control command word: three codes taken, other codes marked not taken, 0 nothing, reads 0. For every
state with RESET not held and no access, lanes l and a write of v to the control command word, with w the
value v with an unwritten lane read as 0: the access is SERVED at its beginning whatever the memory face
does and is not forwarded. w = LAYOUT_RESET, CLEAR_ALL_LOCKOUTS or LOCK_FREEZE has its command's effect and
the last-command word shows w; 0 changes nothing; any other w only sets the last-command word to w with bit
15 set, and UNKNOWN_COMMAND_CODE w does that alone. A read returns 0 and changes nothing else. -/
def Obligations.ControlCommandWordTakesCodes : Prop :=
  ∀ (s : State) (a : WordAddr) (l : Lanes) (v w : Word), s.inReset = false → s.access = .none →
    refAt s.windowBase a = .command → w = mergeLanes l v 0 →
    (∃ t : State,
        exec (.hostAccessBegin { addr := a, op := .write v, lanes := l }) s =
          .next { t with access := .served { addr := a, op := .write v, lanes := l } }
        ∧ t.mem = s.mem ∧ t.face = s.face
        ∧ (w = 0x4C01 → exec .layoutReset s = .next t ∧ t.lastCommand = w)
        ∧ (w = 0x4C02 → exec .clearAllLockouts s = .next t ∧ t.lastCommand = w)
        ∧ (w = 0x4C03 → exec .lockFreeze s = .next t ∧ t.lastCommand = w)
        ∧ (w = 0 → t = s)
        ∧ (w ≠ 0x4C01 → w ≠ 0x4C02 → w ≠ 0x4C03 → w ≠ 0 → t = { s with lastCommand := w ||| 0x8000 }
            ∧ exec (.unknownCommandCode w) s = .next t))
    ∧ exec (.hostAccessBegin { addr := a, op := .read, lanes := l }) s =
        .next { s with access := .served { addr := a, op := .read, lanes := l }
                       readData := onLanes l 0 }

/-- CLEAR_FLAGS clears d's seven latched flags and changes nothing else. For every state with RESET not held and
every district whose context passes its check, CLEAR_FLAGS answers next of the state with d's seven flags
clear and everything else, read data included, unchanged. -/
def Obligations.ClearFlagsClearsSevenFlags : Prop :=
  ∀ (s : State) (d : DistrictId), s.inReset = false → s.passes d →
    exec (.clearFlags d) s = .next (s.modDist d (fun x =>
      { x with flags :=
          { tripped := false, refused := false, lockoutEntered := false, rampStalled := false,
            flipped := false, restored := false, checkError := false } }))

/-- HOST_INTENT_WRITE stores the filtered word, clears the mark, latches REFUSED if altered, and follows a check
error it raises. For every state with the face free, every district whose context passes its check, value
and lanes: the write answers next of the end of a claim at d on some u. In u word 0 is the merged value, or
that value with the intent OFF where the code is 3, or it is ON or ON_MANUAL in LOCKOUT, LOCKED, CHECK_HOLD,
while invalid or unmapped; memory holds the same word; the mark of word 0 is cleared and no other mark
changes; REFUSED is latched exactly when the value was altered. Words 1 to 4, every other context, control
words, adjacency, nodes and lines stand. Where the context fails its check, the write answers as from the
state after the check error with its notice and scan: d in CHECK_HOLD (or LOCKED, where it stays), out of
queue and engine, invalid, CHECK_ERROR latched, its marks removed; with the queue holding the QUEUED
districts, the word is then the first of the reload set, and the intent is OFF. -/
def Obligations.HostIntentWriteStoresFilteredWord : Prop :=
  (∀ (s : State) (d : DistrictId) (v : Word) (l : Lanes), s.faceFree → s.passes d →
    ∃ (u : State) (w stored : Word),
      exec (.hostIntentWrite d v l) s = .next (s.finish d u)
      ∧ w = mergeLanes l v (s.dist d).words[(0 : Fin 5)]
      ∧ stored = (if w &&& 3 = 3 then w &&& 0xFFFC
          else if (w &&& 3 = 1 ∨ w &&& 3 = 2) ∧ ((s.dist d).state = .lockout ∨ (s.dist d).state = .locked
              ∨ (s.dist d).state = .checkHold ∨ (s.dist d).invalid = true
              ∨ (s.dist d).words[(1 : Fin 5)] &&& 0xF = 0) then w &&& 0xFFFC
          else w)
      ∧ (u.dist d).words[(0 : Fin 5)] = stored
      ∧ (∀ i : Fin 5, i ≠ 0 → (u.dist d).words[i] = (s.dist d).words[i])
      ∧ u.mem = Memory.write s.mem (addressOf s.windowBase (.district d 0)) .both stored
      ∧ (∀ p : IntentPos, p ∈ u.corrections ↔ p ∈ s.corrections ∧ p ≠ .district d 0)
      ∧ (u.dist d).flags = { (s.dist d).flags with
          refused := (s.dist d).flags.refused || decide (stored ≠ w) }
      ∧ (u.dist d).polarity = (s.dist d).polarity ∧ (u.dist d).attempts = (s.dist d).attempts
      ∧ (∀ e : DistrictId, e ≠ d → u.dist e = s.dist e)
      ∧ u.control = s.control ∧ u.adjacency = s.adjacency ∧ u.nodes = s.nodes ∧ u.lines = s.lines)
  ∧ ∀ (s : State) (d : DistrictId) (v : Word) (l : Lanes), s.faceFree → ¬s.passes d →
    TakenAfterCheckError s d 0 (.hostIntentWrite d v l)

/-- ON or ON_MANUAL in OFF, or ON in STOPPED: QUEUED by priority if the node is PRESENT, else UNREACHABLE. For
every state with the face free and a valid, mapped district whose context passes its check, a write whose
merged intent is ON or ON_MANUAL in OFF, or ON in STOPPED, answers next of the end of a claim at d on some
u. With the mapped node PRESENT, d is QUEUED in u with the mark off, placed directly after the last entry of
equal or lower priority number; otherwise it is UNREACHABLE and the queue stands. Level 0; engines, feeds
and slots stand. -/
def Obligations.HostIntentWriteStartsDistrict : Prop :=
  ∀ (s : State) (d : DistrictId) (v : Word) (l : Lanes) (k : NodeId), s.faceFree → s.passes d →
    (s.dist d).invalid = false → (s.dist d).node = some k →
    ((s.dist d).state = .off ∧ (mergeLanes l v (s.dist d).words[(0 : Fin 5)] &&& 3 = 1
        ∨ mergeLanes l v (s.dist d).words[(0 : Fin 5)] &&& 3 = 2)
      ∨ (s.dist d).state = .stopped ∧ mergeLanes l v (s.dist d).words[(0 : Fin 5)] &&& 3 = 1) →
    ∃ u : State, exec (.hostIntentWrite d v l) s = .next (s.finish d u)
      ∧ (u.dist d).words[(0 : Fin 5)] = mergeLanes l v (s.dist d).words[(0 : Fin 5)]
      ∧ (u.dist d).level = 0 ∧ (u.dist d).mark = false
      ∧ ((s.node k).state = .present → (u.dist d).state = .queued
          ∧ ∃ before after : List DistrictId, s.queue = before ++ after ∧ u.queue = before ++ d :: after
            ∧ (∀ q ∈ after, (s.dist d).priority < (s.dist q).priority)
            ∧ (∀ q ∈ before.getLast?, (s.dist q).priority ≤ (s.dist d).priority))
      ∧ ((s.node k).state ≠ .present → (u.dist d).state = .unreachable ∧ u.queue = s.queue)
      ∧ u.engines = s.engines ∧ u.feeds = s.feeds ∧ u.slots = s.slots

/-- OFF written in QUEUED, RAMPING, PROVING, LIVE, REVERSING, HOLDOFF, GATED or STOPPED takes d to OFF. For
every state with the face free and a district in one of the eight states whose context passes its check, a
write whose merged intent is OFF answers next of the end of a claim at d on some u in which d is OFF with
level 0, mark off and timers stopped, polarity and attempt count kept; d is out of the queue; the engine
holding d, if any, is freed with its feed's engaged count 1 lower; no stress account changes; slots and
every other context stand. -/
def Obligations.HostIntentOffStopsDistrict : Prop :=
  ∀ (s : State) (d : DistrictId) (v : Word) (l : Lanes), s.faceFree → s.passes d →
    mergeLanes l v (s.dist d).words[(0 : Fin 5)] &&& 3 = 0 →
    ((s.dist d).state = .queued ∨ (s.dist d).state = .ramping ∨ (s.dist d).state = .proving
      ∨ (s.dist d).state = .live ∨ (s.dist d).state = .reversing ∨ (s.dist d).state = .holdoff
      ∨ (s.dist d).state = .gated ∨ (s.dist d).state = .stopped) →
    ∃ u : State, exec (.hostIntentWrite d v l) s = .next (s.finish d u)
      ∧ (u.dist d).state = .off ∧ (u.dist d).level = 0 ∧ (u.dist d).mark = false
      ∧ (u.dist d).holdoffTimer = .none ∧ (u.dist d).provingTimer = .none ∧ (u.dist d).quietTimer = .none
      ∧ (u.dist d).polarity = (s.dist d).polarity ∧ (u.dist d).attempts = (s.dist d).attempts
      ∧ u.queue = s.queue.erase d
      ∧ (∀ k : FeedId, (u.feed k).stress = (s.feed k).stress)
      ∧ (s.engineOf d = .none → u.engines = s.engines ∧ u.feeds = s.feeds)
      ∧ (∀ e : EngineId, s.engineOf d = some e →
          (u.engine e).district = .none ∧ (u.engine e).timer = .none
          ∧ (u.feed (s.engine e).feed).engaged = (s.feed (s.engine e).feed).engaged - 1
          ∧ (∀ f : EngineId, f ≠ e → u.engine f = s.engine f))
      ∧ u.slots = s.slots ∧ (∀ e : DistrictId, e ≠ d → u.dist e = s.dist e)

/-- In TRIPPED an intent write sets or removes the withdrawn mark; in the remaining cases no state changes. For
every state with the face free and a valid district whose context passes its check, and which no write moves
by R11, R13 or R14 (ON or ON_MANUAL outside OFF and STOPPED, ON_MANUAL in STOPPED, OFF in TRIPPED, LOCKOUT,
LOCKED, CHECK_HOLD, UNREACHABLE or OFF): the write answers next t with d's state, the queue, the engines and
the feeds unchanged. In TRIPPED with incident slot n, d's member entry is withdrawn exactly if the merged
intent is not ON or ON_MANUAL (code 3 counts as OFF), provided d is mapped; otherwise the slots stand. -/
def Obligations.HostIntentWriteOtherwiseKeepsState : Prop :=
  ∀ (s : State) (d : DistrictId) (v : Word) (l : Lanes) (i : Word), s.faceFree → s.passes d →
    (s.dist d).invalid = false → i = mergeLanes l v (s.dist d).words[(0 : Fin 5)] &&& 3 →
    ((i = 1 ∨ i = 2) ∧ (s.dist d).state ≠ .off ∧ (s.dist d).state ≠ .stopped
        ∧ (s.dist d).nodeField ≠ 0
      ∨ i = 2 ∧ (s.dist d).state = .stopped ∧ (s.dist d).nodeField ≠ 0
      ∨ (i = 0 ∨ i = 3) ∧ ((s.dist d).state = .tripped ∨ (s.dist d).state = .lockout
          ∨ (s.dist d).state = .locked ∨ (s.dist d).state = .checkHold
          ∨ (s.dist d).state = .unreachable ∨ (s.dist d).state = .off)) →
    ∃ t : State, exec (.hostIntentWrite d v l) s = .next t
      ∧ (t.dist d).state = (s.dist d).state ∧ t.queue = s.queue ∧ t.engines = s.engines
      ∧ t.feeds = s.feeds
      ∧ (∀ n : SlotId, (s.dist d).state = .tripped → (s.dist d).incidentSlot = some n →
          (t.slot n).members = (s.slot n).members.map (fun m =>
            if m.district = d then { m with withdrawn := decide (i = 0 ∨ i = 3) } else m))
      ∧ ((s.dist d).state ≠ .tripped → t.slots = s.slots)

/-- A write to words 1 to 4 of a valid district outside the accepting states keeps the old word. For every state
with the face free and a valid district whose context passes its check and whose state is not OFF, LOCKOUT,
UNREACHABLE or CHECK_HOLD: DISTRICT_WORD_WRITE answers next of the state with REFUSED latched in the
district exactly if the merged value differs from the old word in a field, the old word written back to
memory and its mark cleared. Nothing else changes: not the copy, nor any other part of the context or of the
state. -/
def Obligations.DistrictWordKeptOutsideAcceptingStates : Prop :=
  ∀ (s : State) (d : DistrictId) (w : Fin 4) (v : Word) (l : Lanes), s.faceFree → s.passes d →
    (s.dist d).invalid = false → (s.dist d).state ≠ .off → (s.dist d).state ≠ .lockout →
    (s.dist d).state ≠ .unreachable → (s.dist d).state ≠ .checkHold →
    exec (.districtWordWrite d w v l) s = .next
      { s with
        districts := put s.districts d
          { s.dist d with
            flags := { (s.dist d).flags with
              refused := (s.dist d).flags.refused
                || fieldsDiffer w.succ (mergeLanes l v (s.dist d).words[w.succ]) (s.dist d).words[w.succ] } }
        corrections := s.corrections.filter (fun p => p != .district d w.succ)
        mem := Memory.write s.mem (addressOf s.windowBase (.district d w.succ)) .both
          (s.dist d).words[w.succ] }

/-- A write to words 1 to 4 in an accepting state is tested and clamped; where R136 and R140 differ on REFUSED
the model's choice holds (log 32). For every state with the face free and a district whose context passes
its check and is invalid or whose state is OFF, LOCKOUT, UNREACHABLE or CHECK_HOLD: DISTRICT_WORD_WRITE
answers next of the end of a claim at d on some u whose copy and memory hold the stored word. Word 1 is the
old word if the node is 9 to 15, or not 0 and another context holds the same node and channel; word 2 is the
old word if the feed is above 7; words 3 and 4 have each field clamped and every other bit as written.
REFUSED is latched exactly if a test failed or a field was altered. Two clauses are the model's choice (log
32): that REFUSED is latched where a failed test keeps a word the host itself wrote (R136 latches nothing
there), and that a pair held by another copy fails the test although d holds it already (R140 lets a write
of the own pair pass). The mark of the word is cleared; other contexts stand. Where the context fails its
check, the write is taken after the check error, as of an invalid context, and its word is the first of the
reload set. -/
def Obligations.DistrictWordTestedAndClamped : Prop :=
  (∀ (s : State) (d : DistrictId) (w : Fin 4) (v : Word) (l : Lanes), s.faceFree → s.passes d →
    ((s.dist d).invalid = true ∨ (s.dist d).state = .off ∨ (s.dist d).state = .lockout
      ∨ (s.dist d).state = .unreachable ∨ (s.dist d).state = .checkHold) →
    ∃ (u : State) (m stored : Word) (failed : Prop),
      exec (.districtWordWrite d w v l) s = .next (s.finish d u)
      ∧ m = mergeLanes l v (s.dist d).words[w.succ]
      ∧ (failed ↔ (w = 0 ∧ (9 ≤ field m 0 4 ∨ field m 0 4 ≠ 0 ∧ ∃ e : DistrictId, e ≠ d
            ∧ field (s.dist e).words[(1 : Fin 5)] 0 4 = field m 0 4
            ∧ field (s.dist e).words[(1 : Fin 5)] 4 2 = field m 4 2))
          ∨ (w = 1 ∧ 8 ≤ field m 0 4))
      ∧ (failed → stored = (s.dist d).words[w.succ])
      ∧ (¬failed → (w = 0 ∨ w = 1) → stored = m)
      ∧ (w = 2 → field stored 0 4 = max 1 (field m 0 4)
          ∧ field stored 8 5 = max 1 (min 16 (field m 8 5)) ∧ stored &&& 0xE0F0 = m &&& 0xE0F0)
      ∧ (w = 3 → field stored 0 5 = max 1 (min 16 (field m 0 5))
          ∧ field stored 8 8 = max 1 (field m 8 8) ∧ stored &&& 0x00E0 = m &&& 0x00E0)
      ∧ (u.dist d).words[w.succ] = stored
      ∧ u.mem = Memory.write s.mem (addressOf s.windowBase (.district d w.succ)) .both stored
      ∧ ((u.dist d).flags.refused = true ↔
          (s.dist d).flags.refused = true ∨ failed ∨ fieldsDiffer w.succ m stored = true)
      ∧ (∀ p : IntentPos, p ≠ .district d 0 →
          (p ∈ u.corrections ↔ p ∈ s.corrections ∧ p ≠ .district d w.succ))
      ∧ (∀ i : Fin 5, i ≠ 0 → i ≠ w.succ → (u.dist d).words[i] = (s.dist d).words[i])
      ∧ (∀ e : DistrictId, e ≠ d → u.dist e = s.dist e)
      ∧ u.engines = s.engines ∧ u.feeds = s.feeds ∧ u.slots = s.slots ∧ u.control = s.control
      ∧ u.adjacency = s.adjacency ∧ u.nodes = s.nodes)
  ∧ ∀ (s : State) (d : DistrictId) (w : Fin 4) (v : Word) (l : Lanes), s.faceFree → ¬s.passes d →
    TakenAfterCheckError s d w.succ (.districtWordWrite d w v l)

/-- A changed node or channel zeroes the current, and moves an UNREACHABLE district by its new node. For every
state with the face free and a valid district in OFF, LOCKOUT or UNREACHABLE whose context passes its check,
a word 1 write that passes R140 and changes the node or channel answers next of the end of a claim at d on
some u with current 0: OFF and LOCKOUT stay. UNREACHABLE goes, with a PRESENT node, to QUEUED with the mark
off if the intent is ON or ON_MANUAL and to OFF otherwise; stays with an ABSENT or LOST node; goes to OFF
when unmapped, an ON or ON_MANUAL intent being set to OFF and word 0 marked. -/
def Obligations.MappingChangeJudgesDistrict : Prop :=
  ∀ (s : State) (d : DistrictId) (v : Word) (l : Lanes) (m : Word), s.faceFree → s.passes d →
    (s.dist d).invalid = false →
    ((s.dist d).state = .off ∨ (s.dist d).state = .lockout ∨ (s.dist d).state = .unreachable) →
    m = mergeLanes l v (s.dist d).words[(1 : Fin 5)] → field m 0 4 ≤ 8 →
    (field m 0 4 = 0 ∨ ∀ e : DistrictId, e ≠ d →
      ¬(field (s.dist e).words[(1 : Fin 5)] 0 4 = field m 0 4
        ∧ field (s.dist e).words[(1 : Fin 5)] 4 2 = field m 4 2)) →
    field m 0 6 ≠ field (s.dist d).words[(1 : Fin 5)] 0 6 →
    ∃ u : State, exec (.districtWordWrite d 0 v l) s = .next (s.finish d u)
      ∧ (u.dist d).current = 0 ∧ (u.dist d).words[(1 : Fin 5)] = m
      ∧ ((s.dist d).state ≠ .unreachable → (u.dist d).state = (s.dist d).state ∧ u.queue = s.queue)
      ∧ ((s.dist d).state = .unreachable →
          (field m 0 4 = 0 → (u.dist d).state = .off ∧ u.queue = s.queue ∧ (u.dist d).intent = .off
              ∧ ((s.dist d).intent ≠ .off → IntentPos.district d 0 ∈ u.corrections))
          ∧ (∀ k : NodeId, field m 0 4 = k.val + 1 → (s.node k).state ≠ .present →
              (u.dist d).state = .unreachable ∧ u.queue = s.queue)
          ∧ (∀ k : NodeId, field m 0 4 = k.val + 1 → (s.node k).state = .present →
              (s.dist d).intent = .off → (u.dist d).state = .off ∧ u.queue = s.queue)
          ∧ (∀ k : NodeId, field m 0 4 = k.val + 1 → (s.node k).state = .present →
              (s.dist d).intent ≠ .off →
              (u.dist d).state = .queued ∧ (u.dist d).mark = false ∧ u.queue.Perm (d :: s.queue)))

/-- A write to an invalid context joins the reload set; the fifth word clears the flag and frees CHECK_HOLD. For
every state with the face free and a district in CHECK_HOLD or LOCKED with its context-invalid flag set: a
write of any of its five words answers next of the end of a claim at d on some u. If the word's number does
not complete the reload set, the set gains it, and flag and state stand. If it does, the flag clears, the
set is empty, the check code agrees, and CHECK_HOLD goes to OFF while LOCKED stays. A word 0 so written is
stored with the intent OFF. -/
def Obligations.ReloadCompletesWithFifthWord : Prop :=
  ∀ (s : State) (d : DistrictId) (w : Fin 5) (v : Word) (l : Lanes) (c : Instr), s.faceFree →
    (s.dist d).invalid = true → ((s.dist d).state = .checkHold ∨ (s.dist d).state = .locked) →
    (w = 0 ∧ c = .hostIntentWrite d v l ∨ ∃ i : Fin 4, w = i.succ ∧ c = .districtWordWrite d i v l) →
    ∃ u : State, exec c s = .next (s.finish d u)
      ∧ ((s.dist d).reload ||| BitVec.twoPow 5 w.val ≠ 0b11111 →
          (u.dist d).invalid = true ∧ (u.dist d).reload = (s.dist d).reload ||| BitVec.twoPow 5 w.val
          ∧ (u.dist d).state = (s.dist d).state)
      ∧ ((s.dist d).reload ||| BitVec.twoPow 5 w.val = 0b11111 →
          (u.dist d).invalid = false ∧ (u.dist d).reload = 0 ∧ (u.dist d).codeAgrees = true
          ∧ ((s.dist d).state = .checkHold → (u.dist d).state = .off)
          ∧ ((s.dist d).state = .locked → (u.dist d).state = .locked))
      ∧ (w = 0 → (u.dist d).intent = .off) ∧ u.queue = s.queue

/-- An adjacency write asking for valid is stored invalid if self-paired, out of range or a duplicate. For every
state with the face free, entry j, value and lanes: ADJACENCY_WRITE answers next of the state whose only
changes are entry j in copy and memory and the cleared mark of its position. The stored word is the merged
value, with bit 15 cleared exactly if it asks for valid and its districts are equal, or one is above 31, or
another valid entry names the same unordered pair. No flag is latched. -/
def Obligations.AdjacencyWriteChecksEntry : Prop :=
  ∀ (s : State) (j : Fin 48) (v : Word) (l : Lanes) (m stored : Word), s.faceFree →
    m = mergeLanes l v s.adjacency[j] →
    stored = (if m.getLsbD 15 = true ∧ (field m 0 6 = field m 8 6 ∨ 31 < field m 0 6 ∨ 31 < field m 8 6
        ∨ ∃ i : Fin 48, i ≠ j ∧ s.adjacency[i].getLsbD 15 = true
          ∧ (field s.adjacency[i] 0 6 = field m 0 6 ∧ field s.adjacency[i] 8 6 = field m 8 6
            ∨ field s.adjacency[i] 0 6 = field m 8 6 ∧ field s.adjacency[i] 8 6 = field m 0 6))
      then m &&& 0x7FFF else m) →
    exec (.adjacencyWrite j v l) s = .next
      { s with
        adjacency := put s.adjacency j stored
        corrections := s.corrections.filter (fun p => p != .adjacency j)
        mem := Memory.write s.mem (addressOf s.windowBase (.adjacency j)) .both stored }

/-- A feed setting is clamped and stored; a ceiling or concurrency write is an occasion for a scan. For every
state with the face free, feed k, setting, value and lanes: FEED_SETTING_WRITE answers next of u, or of the
scan of u for the ceiling and the concurrency, where u differs from the state only in that setting of feed
k, in memory at its position and in the cleared mark. The stored field is the merged field clamped (ceiling
1 to 63, concurrency 1 to 4, sag threshold 2 to 8, settle time 1 to 255) and every other bit is as written. -/
def Obligations.FeedSettingWriteClampsAndScans : Prop :=
  ∀ (s : State) (k : FeedId) (r : FeedReg) (v : Word) (l : Lanes), s.faceFree →
    ∃ (u : State) (m stored : Word),
      m = mergeLanes l v ((s.feed k).read r)
      ∧ u = { s with
          feeds := put s.feeds k ((s.feed k).store r stored)
          corrections := s.corrections.filter (fun p => p != .feed k r)
          mem := Memory.write s.mem (addressOf s.windowBase (.feed k r)) .both stored }
      ∧ (r = .ceiling → exec (.feedSettingWrite k r v l) s = .next u.scan
          ∧ field stored 0 6 = max 1 (field m 0 6) ∧ stored &&& 0xFFC0 = m &&& 0xFFC0)
      ∧ (r = .concurrency → exec (.feedSettingWrite k r v l) s = .next u.scan
          ∧ field stored 0 3 = max 1 (min 4 (field m 0 3)) ∧ stored &&& 0xFFF8 = m &&& 0xFFF8)
      ∧ (r = .sagThreshold → exec (.feedSettingWrite k r v l) s = .next u
          ∧ field stored 0 4 = max 2 (min 8 (field m 0 4)) ∧ stored &&& 0xFFF0 = m &&& 0xFFF0)
      ∧ (r = .settleTime → exec (.feedSettingWrite k r v l) s = .next u
          ∧ field stored 0 8 = max 1 (field m 0 8) ∧ stored &&& 0xFF00 = m &&& 0xFF00)

/-- A control setting or the fault mask is clamped or masked, stored in copy and memory, and nothing else
changes. For every state with the face free: CONTROL_SETTING_WRITE answers next of the state whose only
changes are the setting in the copy, memory at its position and the cleared mark; the field is clamped
(gathering window 1 to 31, proving window 5 to 255, quiet interval, hold-off base and drain period 1 to 255)
and other bits are as written. FAULT_MASK_WRITE does the same with bits 15:5 stored as 0. Running timers,
district flags and every other unit stand. -/
def Obligations.ControlSettingWriteClamps : Prop :=
  (∀ (s : State) (r : Setting) (v : Word) (l : Lanes), s.faceFree →
    ∃ m stored : Word, m = mergeLanes l v (s.control.read (settingReg r))
      ∧ exec (.controlSettingWrite r v l) s = .next
          { s with
            control := s.control.store (settingReg r) stored
            corrections := s.corrections.filter (fun p => p != .control (settingReg r))
            mem := Memory.write s.mem (addressOf s.windowBase (.control (settingReg r))) .both stored }
      ∧ (r = .gatheringWindow → field stored 0 5 = max 1 (field m 0 5) ∧ stored &&& 0xFFE0 = m &&& 0xFFE0)
      ∧ (r = .provingWindow → field stored 0 8 = max 5 (field m 0 8) ∧ stored &&& 0xFF00 = m &&& 0xFF00)
      ∧ (r = .quietInterval ∨ r = .holdoffBase ∨ r = .drainPeriod →
          field stored 0 8 = max 1 (field m 0 8) ∧ stored &&& 0xFF00 = m &&& 0xFF00))
  ∧ (∀ (s : State) (v : Word) (l : Lanes), s.faceFree →
    exec (.faultMaskWrite v l) s = .next
      { s with
        control := { s.control with faultMask := mergeLanes l v s.control.faultMask &&& 0x001F }
        corrections := s.corrections.filter (fun p => p != .control .faultMask)
        mem := Memory.write s.mem (addressOf s.windowBase (.control .faultMask)) .both
          (mergeLanes l v s.control.faultMask &&& 0x001F) })

/-- A write of the attempt limit caps every count above it at once and changes no state or flag. For every state
with the face free, value and lanes: ATTEMPT_LIMIT_WRITE answers next t with the limit clamped to 1 to 7 and
stored in copy and memory, its mark cleared, every attempt count the lesser of its value and the new limit,
and everything else of every context and unit unchanged. -/
def Obligations.AttemptLimitWriteCapsCounts : Prop :=
  ∀ (s : State) (v : Word) (l : Lanes), s.faceFree →
    ∃ (t : State) (m stored : Word), exec (.attemptLimitWrite v l) s = .next t
      ∧ m = mergeLanes l v s.control.attemptLimit
      ∧ field stored 0 3 = max 1 (field m 0 3) ∧ stored &&& 0xFFF8 = m &&& 0xFFF8
      ∧ t.control = { s.control with attemptLimit := stored } ∧ t.control.limit = field stored 0 3
      ∧ (∀ d : DistrictId, t.dist d =
          { s.dist d with attempts := min (s.dist d).attempts (field stored 0 3) })
      ∧ t.mem = Memory.write s.mem (addressOf s.windowBase (.control .attemptLimit)) .both stored
      ∧ (∀ p : IntentPos, p ∈ t.corrections ↔ p ∈ s.corrections ∧ p ≠ .control .attemptLimit)
      ∧ t = { s with
          control := t.control
          districts := t.districts
          corrections := t.corrections
          mem := t.mem }

/-- A ring base or capacity write is refused unless the ring is empty, idle and clear of the window. For every
state with the face free, ring word, value and lanes, with c the control words holding the base aligned to 8
words or the capacity clamped to 16 to 256: if the ring is not empty, or a record is being written, or some
word of the ring of c lies in the window, RING_SETTING_WRITE answers next of the state with the old word
written back and its mark cleared alone. Otherwise copy and memory hold the new word, the producer and
consumer indexes are 0 and the consumer index is marked. -/
def Obligations.RingSettingWriteGuarded : Prop :=
  ∀ (s : State) (r : RingReg) (v : Word) (l : Lanes) (m new : Word) (c : Control), s.faceFree →
    m = mergeLanes l v (s.control.read (ringReg r)) →
    new = (match r with
      | .baseLow => m &&& 0xFFF8
      | .baseHigh => m
      | .capacity => BitVec.ofNat 16 (max 16 (min 256 m.toNat))) →
    c = s.control.store (ringReg r) new →
    ((s.ring.producer ≠ s.control.consumer ∨ s.ring.progress.isSome = true
        ∨ ∃ i : Nat, i < c.capacity * 8
          ∧ inWindow s.windowBase (BitVec.ofNat 19 (c.ringBase + i)) = true) →
      exec (.ringSettingWrite r v l) s = .next
        { s with
          corrections := s.corrections.filter (fun p => p != .control (ringReg r))
          mem := Memory.write s.mem (addressOf s.windowBase (.control (ringReg r))) .both
            (s.control.read (ringReg r)) })
    ∧ (s.ring.producer = s.control.consumer → s.ring.progress = .none →
      (∀ i : Nat, i < c.capacity * 8 →
        inWindow s.windowBase (BitVec.ofNat 19 (c.ringBase + i)) = false) →
      ∃ t : State, exec (.ringSettingWrite r v l) s = .next t
        ∧ t.control = { c with consumerIndex := 0 } ∧ t.ring = { s.ring with producer := 0 }
        ∧ t.mem = Memory.write s.mem (addressOf s.windowBase (.control (ringReg r))) .both new
        ∧ (∀ p : IntentPos, p ∈ t.corrections ↔
            p = .control .consumerIndex ∨ p ∈ s.corrections ∧ p ≠ .control (ringReg r))
        ∧ t.districts = s.districts ∧ t.slots = s.slots ∧ t.queue = s.queue ∧ t.engines = s.engines
        ∧ t.feeds = s.feeds ∧ t.nodes = s.nodes ∧ t.adjacency = s.adjacency)

/-- A consumer write is stored if it names a position from the consumer to the producer, else the old value. For
every state with the face free in which both indexes are below the capacity, value and lanes:
CONSUMER_INDEX_WRITE answers next of the state whose only changes are the consumer index in copy and memory
and the cleared mark. The stored index is the merged value if it is (consumer + i) modulo capacity for some
i from 0 to the number of unconsumed records, and the old value otherwise. -/
def Obligations.ConsumerIndexWriteGuarded : Prop :=
  ∀ (s : State) (v : Word) (l : Lanes) (m stored : Word), s.faceFree →
    s.control.consumer < s.control.capacity → s.ring.producer < s.control.capacity →
    m = mergeLanes l v s.control.consumerIndex →
    ((∃ i : Nat, i ≤ (s.ring.producer + s.control.capacity - s.control.consumer) % s.control.capacity
        ∧ m.toNat = (s.control.consumer + i) % s.control.capacity) → stored = m) →
    ((¬∃ i : Nat, i ≤ (s.ring.producer + s.control.capacity - s.control.consumer) % s.control.capacity
        ∧ m.toNat = (s.control.consumer + i) % s.control.capacity) → stored = s.control.consumerIndex) →
    exec (.consumerIndexWrite v l) s = .next
      { s with
        control := { s.control with consumerIndex := stored }
        corrections := s.corrections.filter (fun p => p != .control .consumerIndex)
        mem := Memory.write s.mem (addressOf s.windowBase (.control .consumerIndex)) .both stored }

/-- A lock set word is stored as written, or under freeze with the old members kept and REFUSED latched. For
every state with the face free, half, value and lanes: LOCK_SET_WRITE answers next of the claims of the
districts whose membership changed (R153), taken on some u; that they are taken in a free order is the
model's choice (log 5). In u the lock set word in copy and memory is the merged value, or under freeze the
old word with the written districts added; its mark is cleared; REFUSED is latched exactly in each district
that, under freeze, the old word held and the written value did not; everything else stands. -/
def Obligations.LockSetWriteFiltersByFreeze : Prop :=
  ∀ (s : State) (h : LockHalf) (v : Word) (l : Lanes), s.faceFree →
    ∃ (u : State) (m stored : Word),
      m = mergeLanes l v (s.control.read (lockReg h))
      ∧ stored = (if s.freeze then s.control.read (lockReg h) ||| m else m)
      ∧ exec (.lockSetWrite h v l) s = .next
          (u.inFreeOrder (districtsOf h (stored ^^^ s.control.read (lockReg h)))
            (State.membershipClaim h stored))
      ∧ u.control = s.control.store (lockReg h) stored
      ∧ u.mem = Memory.write s.mem (addressOf s.windowBase (.control (lockReg h))) .both stored
      ∧ (∀ p : IntentPos, p ∈ u.corrections ↔ p ∈ s.corrections ∧ p ≠ .control (lockReg h))
      ∧ (∀ d : DistrictId, u.dist d = { s.dist d with
          flags := { (s.dist d).flags with
            refused := (s.dist d).flags.refused || (s.freeze
              && (districtsOf h (s.control.read (lockReg h))).contains d && !(districtsOf h m).contains d) } })
      ∧ u = { s with
          control := u.control
          districts := u.districts
          corrections := u.corrections
          mem := u.mem }

/-- A lock write that changes one district takes it to LOCKED, or out of LOCKED by the precedence of R25. For
every state with the face free and a lock write after which exactly district d's membership has changed, d's
context passing its check: the write answers next of the end of a claim at d from some u on some t, u
holding the new lock set. Entering, d is LOCKED in t with level 0 and mark off, out of the queue, intent
OFF, word 0 marked if the context was valid and the intent ON or ON_MANUAL; count, polarity and flags kept.
Leaving LOCKED, d goes to CHECK_HOLD if invalid, else UNREACHABLE if mapped to a node not PRESENT, else OFF,
keeping its count. -/
def Obligations.LockSetWriteMovesChangedDistrict : Prop :=
  ∀ (s : State) (h : LockHalf) (v : Word) (l : Lanes) (d : DistrictId) (old stored : Word), s.faceFree →
    s.passes d → old = s.control.read (lockReg h) →
    stored = (if s.freeze then old ||| mergeLanes l v old else mergeLanes l v old) →
    districtsOf h (stored ^^^ old) = [d] →
    ∃ u t : State, exec (.lockSetWrite h v l) s = .next (u.finish d t)
      ∧ u.control = s.control.store (lockReg h) stored ∧ u.slots = s.slots
      ∧ (u.dist d).state = (s.dist d).state ∧ u.queue = s.queue ∧ u.engines = s.engines
      ∧ (∀ e : DistrictId, e ≠ d → t.dist e = u.dist e) ∧ t.slots = s.slots
      ∧ (t.dist d).attempts = (s.dist d).attempts ∧ (t.dist d).polarity = (s.dist d).polarity
      ∧ (t.dist d).flags = (u.dist d).flags ∧ (t.dist d).invalid = (s.dist d).invalid
      ∧ (d ∈ districtsOf h stored → (t.dist d).state = .locked ∧ (t.dist d).level = 0
          ∧ (t.dist d).mark = false ∧ (t.dist d).intent = .off ∧ t.queue = s.queue.erase d
          ∧ ((s.dist d).invalid = false → (s.dist d).intent ≠ .off → IntentPos.district d 0 ∈ t.corrections)
          ∧ ((s.dist d).invalid = true ∨ (s.dist d).intent = .off →
              (IntentPos.district d 0 ∈ t.corrections ↔ IntentPos.district d 0 ∈ s.corrections)))
      ∧ (d ∉ districtsOf h stored → (s.dist d).state = .locked → t.queue = s.queue
          ∧ ((s.dist d).invalid = true → (t.dist d).state = .checkHold)
          ∧ ((s.dist d).invalid = false → ∀ k : NodeId, (s.dist d).node = some k →
              (s.node k).state ≠ .present → (t.dist d).state = .unreachable)
          ∧ ((s.dist d).invalid = false → ((s.dist d).node = .none
              ∨ ∃ k : NodeId, (s.dist d).node = some k ∧ (s.node k).state = .present) →
              (t.dist d).state = .off))

/-- FLAGS_READ returns d's seven flags on the requested lanes and clears them all. For every state with RESET
not held, district and lanes: FLAGS_READ answers next of the state with d's seven flags clear and the flags
word on the requested lanes alone, bits 0 to 6 being TRIPPED, REFUSED, LOCKOUT_ENTERED, RAMP_STALLED,
FLIPPED, RESTORED and CHECK_ERROR and the others 0. Nothing else changes. -/
def Obligations.FlagsReadReturnsAndClearsFlags : Prop :=
  ∀ (s : State) (d : DistrictId) (l : Lanes), s.inReset = false →
    ∃ w : Word, exec (.flagsRead d l) s = .next
        { s.modDist d (fun x => { x with flags :=
            { tripped := false, refused := false, lockoutEntered := false, rampStalled := false,
              flipped := false, restored := false, checkError := false } }) with readData := onLanes l w }
      ∧ w.getLsbD 0 = (s.dist d).flags.tripped ∧ w.getLsbD 1 = (s.dist d).flags.refused
      ∧ w.getLsbD 2 = (s.dist d).flags.lockoutEntered ∧ w.getLsbD 3 = (s.dist d).flags.rampStalled
      ∧ w.getLsbD 4 = (s.dist d).flags.flipped ∧ w.getLsbD 5 = (s.dist d).flags.restored
      ∧ w.getLsbD 6 = (s.dist d).flags.checkError ∧ w &&& 0xFF80 = 0

/-- The last reset cause: FULL at a full reset, LAYOUT at a layout reset, NONE after a read; a write is dropped.
A full reset, from any state, leaves the word FULL. With RESET not held: a layout reset leaves it LAYOUT
whatever it showed; LAST_RESET_CAUSE_READ answers next of the state with the word NONE and its old code
(NONE 0, FULL 1, LAYOUT 2) on the requested lanes, and nothing else changed; a write to it by a host access
is SERVED and changes nothing else. -/
def Obligations.LastResetCauseSetByResetsAndClearedByRead : Prop :=
  (∀ (s : State) (p : Pins), ∃ t : State, exec (.fullReset p) s = .next t ∧ t.lastResetCause = .full)
  ∧ (∀ s : State, s.inReset = false → ∃ t : State, exec .layoutReset s = .next t ∧ t.lastResetCause = .layout)
  ∧ (∀ (s : State) (l : Lanes), s.inReset = false → exec (.lastResetCauseRead l) s = .next
      { s with
        lastResetCause := .none
        readData := onLanes l (match s.lastResetCause with
          | .none => 0
          | .full => 1
          | .layout => 2) })
  ∧ (∀ (s : State) (a : WordAddr) (v : Word) (l : Lanes), s.inReset = false → s.access = .none →
      refAt s.windowBase a = .lastResetCause →
      exec (.hostAccessBegin { addr := a, op := .write v, lanes := l }) s =
        .next { s with access := .served { addr := a, op := .write v, lanes := l } })

/-- HOST_INTENT_READ: the copy if marked, memory if not or if the context is invalid, memory after a check
error. For every state with RESET not held, position and lanes: a marked position of no invalid context,
whose context passes, is returned from the copy and nothing else changes, whatever the face does. Otherwise,
with the face idle, memory's word is returned and nothing else changes; with an own word in flight and no
access, the read waits. A marked word of a valid district whose check fails takes the check error, and
memory's word is returned. -/
def Obligations.HostIntentReadServedFromCopyOrMemory : Prop :=
  ∀ (s : State) (p : IntentPos) (l : Lanes), s.inReset = false →
    (s.marked p = true → s.ofInvalid p = false → (∀ d : DistrictId, districtOf p = some d → s.passes d) →
      exec (.hostIntentRead p l) s = .next { s with readData := onLanes l (s.copy p) })
    ∧ (s.marked p = false ∨ s.ofInvalid p = true → s.face = .idle →
      exec (.hostIntentRead p l) s = .next
        { s with readData := onLanes l (Memory.word s.mem (addressOf s.windowBase p)) })
    ∧ (s.marked p = false ∨ s.ofInvalid p = true → s.face ≠ .idle → s.face ≠ .host → s.access = .none →
      exec (.hostIntentRead p l) s = .next
        { s with access := .waiting { addr := addressOf s.windowBase p, op := .read, lanes := l } })
    ∧ (∀ d : DistrictId, districtOf p = some d → s.marked p = true → ¬s.passes d → s.face = .idle →
      exec (.hostIntentRead p l) s = .next
        { s.raiseCheck d with readData := onLanes l (Memory.word s.mem (addressOf s.windowBase p)) })

/-- A host access that needs the face takes it when IDLE and is carried out, or waits behind an own word. For
every state with RESET not held and no access: an access to an owner word or outside the window, with the
face IDLE, takes the face and ON_FACE; a read returns memory's word on its lanes and a write stores its
lanes, and nothing else changes. A write of an intent word with the face IDLE takes the face and the Image
Decoder takes the write. Behind an own word either one goes to WAITING with WAIT asserted, and nothing else
changes. A read of an intent word is SERVED from the copy, whatever the face does, if its word is marked and
its context valid and passing its check; unmarked, or of an invalid context, it takes an IDLE face and reads
memory, or WAITS behind an own word; where the check of a marked word's context fails, the check error is
taken first, and the read then does the same as of an invalid context. -/
def Obligations.HostAccessTakesFaceOrWaits : Prop :=
  ∀ (s : State) (r : Request), s.inReset = false → s.access = .none →
    (refAt s.windowBase r.addr = .owner → s.face = .idle → r.op = .read →
      exec (.hostAccessBegin r) s = .next
        { s with
          face := .host
          access := .onFace r
          readData := onLanes r.lanes (Memory.word s.mem r.addr) })
    ∧ (∀ v : Word, refAt s.windowBase r.addr = .owner → s.face = .idle → r.op = .write v →
      exec (.hostAccessBegin r) s = .next
        { s with face := .host, access := .onFace r, mem := Memory.write s.mem r.addr r.lanes v })
    ∧ (∀ (p : IntentPos) (v : Word), refAt s.windowBase r.addr = .intent p → s.face = .idle →
      r.op = .write v →
      exec (.hostAccessBegin r) s = .next
        (({ s with face := .host, access := .onFace r } : State).takeIntentWrite p v r.lanes))
    ∧ ((refAt s.windowBase r.addr = .owner
        ∨ ∃ (p : IntentPos) (v : Word), refAt s.windowBase r.addr = .intent p ∧ r.op = .write v) →
      s.face ≠ .idle → s.face ≠ .host →
      ∃ t : State, exec (.hostAccessBegin r) s = .next t ∧ t = { s with access := .waiting r }
        ∧ t.waitAsserted = true)
    ∧ (∀ p : IntentPos, refAt s.windowBase r.addr = .intent p → r.op = .read →
      (s.marked p = true → s.ofInvalid p = false → (∀ d : DistrictId, districtOf p = some d → s.passes d) →
        exec (.hostAccessBegin r) s = .next
          { s with access := .served r, readData := onLanes r.lanes (s.copy p) })
      ∧ (s.marked p = false ∨ s.ofInvalid p = true → s.face = .idle →
        exec (.hostAccessBegin r) s = .next
          { s with
            face := .host
            access := .onFace r
            readData := onLanes r.lanes (Memory.word s.mem r.addr) })
      ∧ (s.marked p = false ∨ s.ofInvalid p = true → s.face ≠ .idle → s.face ≠ .host →
        exec (.hostAccessBegin r) s = .next { s with access := .waiting r })
      ∧ (∀ d : DistrictId, districtOf p = some d → s.marked p = true → ¬s.passes d →
        (s.face = .idle → exec (.hostAccessBegin r) s = .next
          { s.raiseCheck d with
            face := .host
            access := .onFace r
            readData := onLanes r.lanes (Memory.word s.mem r.addr) })
        ∧ (s.face ≠ .idle → s.face ≠ .host → exec (.hostAccessBegin r) s = .next
          { s.raiseCheck d with access := .waiting r })))

/-- An access to a live, read-clear or action word is SERVED at its beginning, whatever the memory face does.
For every state with RESET not held and no access: a read of a live word is SERVED with the part's own view
of it; a write to a live or read-clear word is SERVED and changes nothing else; a read of a flags word has
FLAGS_READ's effect; a write to an action word has the effect of CLEAR_LOCKOUT for 0x5A01, of CLEAR_FLAGS
for 0x5A02 and none for any other value, the lane not written read as 0; a read of one returns 0. Each live
word shows at its offset its fields as they stand: last-command; control status (image settling, HOLD,
FAULT, open incidents, busy engines); producer; each node's state, misses, restarted; each feed's state,
engaged count, stress and four history entries; the bitmaps of flags, LOCKOUT and LIVE; the queue; each
slot's state, id, class, origin, member count and three sets, 0 where FREE; each district's state, polarity,
mark, context-invalid, count, reload set, current, level, cause, role, slot and last id. The level is shown
in the current and level word, where R9 names the state word (log 30). No WAIT is asserted. -/
def Obligations.HostAccessServedWithoutFace : Prop :=
  ∀ (s : State) (a : WordAddr) (l : Lanes), s.inReset = false → s.access = .none →
    (∀ w : LiveWord, refAt s.windowBase a = .live w →
      exec (.hostAccessBegin { addr := a, op := .read, lanes := l }) s = .next
        { s with
          access := .served { addr := a, op := .read, lanes := l }
          readData := onLanes l (s.liveView w) })
    ∧ (∀ v : Word, ((∃ w : LiveWord, refAt s.windowBase a = .live w)
        ∨ (∃ d : DistrictId, refAt s.windowBase a = .flags d)) →
      exec (.hostAccessBegin { addr := a, op := .write v, lanes := l }) s = .next
        { s with access := .served { addr := a, op := .write v, lanes := l } })
    ∧ (∀ d : DistrictId, refAt s.windowBase a = .flags d →
      ∃ t : State, exec (.flagsRead d l) s = .next t
        ∧ exec (.hostAccessBegin { addr := a, op := .read, lanes := l }) s = .next
          { t with access := .served { addr := a, op := .read, lanes := l } })
    ∧ (∀ (d : DistrictId) (v w : Word), refAt s.windowBase a = .action d → w = mergeLanes l v 0 →
      ∃ t : State, (w = 0x5A01 → exec (.clearLockout d) s = .next t)
        ∧ (w = 0x5A02 → exec (.clearFlags d) s = .next t) ∧ (w ≠ 0x5A01 → w ≠ 0x5A02 → t = s)
        ∧ exec (.hostAccessBegin { addr := a, op := .write v, lanes := l }) s = .next
          { t with access := .served { addr := a, op := .write v, lanes := l } })
    ∧ (∀ d : DistrictId, refAt s.windowBase a = .action d →
      exec (.hostAccessBegin { addr := a, op := .read, lanes := l }) s = .next
        { s with access := .served { addr := a, op := .read, lanes := l }, readData := onLanes l 0 })
    ∧ ReadsAs s 0x002 s.lastCommand
    ∧ (∃ w : Word, ReadsAs s 0x004 w ∧ (w.getLsbD 0 = true ↔ s.corrections ≠ []) ∧ w.getLsbD 1 = s.hold
        ∧ w.getLsbD 2 = s.faultAsserted ∧ field w 4 3 = s.openCount
        ∧ (∀ e : EngineId, w.getLsbD (8 + e.val) = (s.engine e).district.isSome) ∧ w &&& 0xF088 = 0)
    ∧ ReadsAs s 0x008 (BitVec.ofNat 16 (s.ring.producer % 512))
    ∧ (∀ k : NodeId, ∃ w : Word, ReadsAs s (0x030 + 2 * k.val) w
        ∧ field w 0 2 = (match (s.node k).state with
          | .absent => 0
          | .present => 1
          | .lost => 2)
        ∧ field w 4 2 = (s.node k).misses % 4 ∧ w.getLsbD 8 = (s.node k).restarted ∧ w &&& 0xFECC = 0)
    ∧ (∀ k : FeedId, ∃ w : Word, ReadsAs s (0x088 + 16 * k.val) w
        ∧ field w 0 2 = (match (s.feed k).state with
          | .down => 0
          | .settling => 1
          | .up => 2)
        ∧ field w 4 3 = (s.feed k).engaged % 8 ∧ field w 8 6 = (s.feed k).stress % 64 ∧ w &&& 0xC08C = 0)
    ∧ (∀ k : FeedId, ∃ w v : Word, ReadsAs s (0x08A + 16 * k.val) w ∧ ReadsAs s (0x08C + 16 * k.val) v
        ∧ ∀ i : Fin 4, field (if i.val < 2 then w else v) (8 * (i.val % 2)) 8 =
            (match (s.feed k).history[i.val]? with
              | some d => d.val
              | .none => 0xFF))
    ∧ (∀ d : DistrictId, ∃ w v u : Word, ReadsAs s (0x160 + 2 * (d.val / 16)) w
        ∧ ReadsAs s (0x164 + 2 * (d.val / 16)) v ∧ ReadsAs s (0x168 + 2 * (d.val / 16)) u
        ∧ w.getLsbD (d.val % 16) = (s.dist d).flags.any
        ∧ v.getLsbD (d.val % 16) = decide ((s.dist d).state = .lockout)
        ∧ u.getLsbD (d.val % 16) = decide ((s.dist d).state = .live))
    ∧ (∀ i : Fin 32, ReadsAs s (0x180 + 2 * i.val) (match s.queue[i.val]? with
        | some d => BitVec.ofNat 16 d.val
        | .none => 0xFFFF))
    ∧ (∀ (n : SlotId) (i : Fin 8), (s.slot n).state = .free → ReadsAs s (0x1C0 + 16 * n.val + 2 * i.val) 0)
    ∧ (∀ n : SlotId, (s.slot n).state ≠ .free → ∃ w v : Word, ReadsAs s (0x1C0 + 16 * n.val) w
        ∧ ReadsAs s (0x1C2 + 16 * n.val) v
        ∧ field w 0 2 = (match (s.slot n).state with
          | .free => 0
          | .gathering => 1
          | .recovering => 2
          | .closing => 3)
        ∧ field w 8 8 = (s.slot n).id.toNat ∧ w &&& 0x00FC = 0
        ∧ field v 0 4 = (match (s.slot n).cls with
          | some .short => 0
          | some .bridge => 1
          | some .reverse => 2
          | some .multi => 3
          | some .feedSag => 4
          | some .undervolt => 5
          | .none => 15)
        ∧ v.getLsbD 9 = (s.slot n).origin.isNone
        ∧ (∀ d : DistrictId, (s.slot n).origin = some d → field v 4 5 = d.val)
        ∧ field v 10 6 = (s.slot n).members.length % 64)
    ∧ (∀ (n : SlotId) (d : DistrictId), (s.slot n).state ≠ .free → ∃ w v u : Word,
        ReadsAs s (0x1C4 + 16 * n.val + 2 * (d.val / 16)) w
        ∧ ReadsAs s (0x1C8 + 16 * n.val + 2 * (d.val / 16)) v
        ∧ ReadsAs s (0x1CC + 16 * n.val + 2 * (d.val / 16)) u
        ∧ w.getLsbD (d.val % 16) = (s.slot n).members.any (fun m => m.district == d)
        ∧ v.getLsbD (d.val % 16) = (s.slot n).restored.getLsbD d.val
        ∧ u.getLsbD (d.val % 16) = (s.slot n).lockouts.getLsbD d.val)
    ∧ (∀ d : DistrictId, ∃ w v u : Word, ReadsAs s (0x20A + 32 * d.val) w
        ∧ ReadsAs s (0x20C + 32 * d.val) v ∧ ReadsAs s (0x20E + 32 * d.val) u
        ∧ field w 0 4 = (match (s.dist d).state with
          | .off => 0
          | .queued => 1
          | .ramping => 2
          | .proving => 3
          | .live => 4
          | .reversing => 5
          | .tripped => 6
          | .holdoff => 7
          | .gated => 8
          | .stopped => 9
          | .lockout => 10
          | .locked => 11
          | .unreachable => 12
          | .checkHold => 13)
        ∧ w.getLsbD 4 = decide ((s.dist d).polarity = .b) ∧ w.getLsbD 5 = (s.dist d).mark
        ∧ w.getLsbD 6 = (s.dist d).invalid ∧ w.getLsbD 7 = false ∧ field w 8 3 = (s.dist d).attempts % 8
        ∧ field w 11 5 = (s.dist d).reload.toNat
        ∧ field v 0 8 = (s.dist d).current.toNat ∧ field v 8 5 = (s.dist d).level % 32 ∧ v &&& 0xE000 = 0
        ∧ field u 0 3 = (match (s.dist d).lastCause with
          | .none => 0
          | some .overcurrent => 1
          | some .overload => 2
          | some .nodeHeat => 3
          | some .undervoltage => 4
          | some .stall => 5)
        ∧ field u 3 2 = (match (s.dist d).role with
          | .none => 0
          | .follower => 1
          | .suspect => 2
          | .flip => 3)
        ∧ ((s.dist d).lastIncident = .none → field u 5 3 = 7 ∧ field u 8 8 = 0)
        ∧ (∀ i : Byte, (s.dist d).lastIncident = some i → field u 8 8 = i.toNat
            ∧ ((s.dist d).incidentSlot = .none → field u 5 3 = 4)
            ∧ ∀ n : SlotId, (s.dist d).incidentSlot = some n → field u 5 3 = n.val))

/-- An access that ends frees the face it holds; one ended while WAIT is asserted is dropped. For every state
with RESET not held: HOST_ACCESS_END takes an ON_FACE access to NONE and the face to IDLE, and a SERVED
access to NONE, and changes nothing else. For a WAITING access ACCESS_DROP and HOST_ACCESS_END take it to
NONE with WAIT released and change nothing else, but that a dropped read leaves no data lane driven. -/
def Obligations.HostAccessEndsOrIsDropped : Prop :=
  ∀ (s : State) (r : Request), s.inReset = false →
    (s.access = .onFace r → exec .hostAccessEnd s = .next { s with access := .none, face := .idle })
    ∧ (s.access = .served r → exec .hostAccessEnd s = .next { s with access := .none })
    ∧ (s.access = .waiting r → r.op = .read → ∀ c : Instr, c = .accessDrop ∨ c = .hostAccessEnd →
        exec c s = .next { s with access := .none, readData := { lower := .none, upper := .none } })
    ∧ (∀ v : Word, s.access = .waiting r → r.op = .write v → ∀ c : Instr, c = .accessDrop ∨ c = .hostAccessEnd →
        exec c s = .next { s with access := .none })

/-- A correction word takes the lowest marked position, writes its value, and clears the mark if the copy
agrees. For every state with RESET not held. Start, face IDLE: with the marks in order of offset and p the
lowest, CORRECTION_WORD_START answers next of the state whose face is taken for p with the copy's value, the
mark kept; where p's context fails its check, the check error is taken and no word starts. Complete, with p
and v in flight: CORRECTION_WORD_COMPLETE writes v at p in memory and clears the mark exactly if the copy
still equals v; with no host access WAITING the face is IDLE and nothing else changes. A WAITING access is
then carried out on that state and WAIT is released: an owner read or write takes the face, ON_FACE, and
reads or writes memory after v; an intent write takes the face and is taken by the Image Decoder; an intent
read is SERVED from the copy, leaving the face IDLE, if its word is then marked and passes its check, and
otherwise takes the face and reads memory, a check error being taken first. -/
def Obligations.CorrectionWordWritesCopyAndClearsMark : Prop :=
  ∀ s : State, s.inReset = false →
    (∀ (p : IntentPos) (rest : List IntentPos), s.face = .idle → s.corrections = p :: rest →
      (∀ q ∈ rest, positionOffset p < positionOffset q) →
      ((∀ d : DistrictId, districtOf p = some d → s.passes d) →
        exec .correctionWordStart s = .next { s with face := .correction p (s.copy p) })
      ∧ (∀ d : DistrictId, districtOf p = some d → ¬s.passes d →
        exec .correctionWordStart s = .next (s.raiseCheck d)))
    ∧ (∀ (p : IntentPos) (v : Word) (u : State), s.face = .correction p v →
      u = { s with
        face := .idle
        mem := Memory.write s.mem (addressOf s.windowBase p) .both v
        corrections := if s.copy p = v then s.corrections.filter (fun q => q != p) else s.corrections } →
      ((∀ r : Request, s.access ≠ .waiting r) → exec .correctionWordComplete s = .next u)
      ∧ (∀ r : Request, s.access = .waiting r → ∃ t : State, exec .correctionWordComplete s = .next t
        ∧ (refAt s.windowBase r.addr = .owner → r.op = .read →
          t = { u with
            face := .host
            access := .onFace r
            readData := onLanes r.lanes (Memory.word u.mem r.addr) })
        ∧ (∀ x : Word, refAt s.windowBase r.addr = .owner → r.op = .write x →
          t = { u with face := .host, access := .onFace r, mem := Memory.write u.mem r.addr r.lanes x })
        ∧ (∀ (q : IntentPos) (x : Word), refAt s.windowBase r.addr = .intent q → r.op = .write x →
          t = ({ u with face := .host, access := .onFace r } : State).takeIntentWrite q x r.lanes)
        ∧ (∀ q : IntentPos, refAt s.windowBase r.addr = .intent q → r.op = .read →
          (u.marked q = true → u.ofInvalid q = false →
            (∀ d : DistrictId, districtOf q = some d → s.passes d) →
            t = { u with access := .served r, readData := onLanes r.lanes (u.copy q) })
          ∧ (u.marked q = false ∨ u.ofInvalid q = true →
            t = { u with
              face := .host
              access := .onFace r
              readData := onLanes r.lanes (Memory.word u.mem r.addr) })
          ∧ (∀ d : DistrictId, districtOf q = some d → u.marked q = true → ¬s.passes d →
            t = { u.raiseCheck d with
              face := .host
              access := .onFace r
              readData := onLanes r.lanes (Memory.word u.mem r.addr) }))
        ∧ (refAt s.windowBase r.addr = .owner ∨ (∃ q : IntentPos, refAt s.windowBase r.addr = .intent q) →
          t.waitAsserted = false)))

/-- RING_WORD_START: word 0 completes the head record with the Writer's fields; later words continue it. For
every state with the face free, no position marked and head record x: while word i of x is next,
RING_WORD_START takes the face for word i of x at base + 8 x producer + i modulo 2^19 and changes nothing
else. With no record being written and the ring not full it takes word 0, x takes the missed count and both
flags, and the Writer's count becomes 0 and flags clear. With the ring full nothing changes. The eight words
of a record: word 0 its id, origin and class; word 1 its duration; word 2 its missed count, member count
less 1, any-saturated, solitary-loss and layout-reset flags; words 3 to 7 one string of 80 bits, whose bits
5k to 5k + 4 hold the status code of district 2k plus 5 times that of 2k + 1, the code being 0 for no
member, 1 in neither set, 2 restored only, 3 lockout only, 4 both. -/
def Obligations.RingWordStartBeginsOrContinuesRecord : Prop :=
  ∀ (s : State) (x : Record) (rest : List Record), s.faceFree → s.corrections = [] →
    s.ring.records = x :: rest →
    (∀ i : Nat, s.ring.progress = some i → exec .ringWordStart s = .next
      { s with face := .ring (BitVec.ofNat 19 (s.control.ringBase + 8 * s.ring.producer + i)) (x.word i) })
    ∧ (s.ring.progress = .none → (s.ring.producer + 1) % s.control.capacity ≠ s.control.consumer →
      exec .ringWordStart s = .next
        { s with
          face := .ring (BitVec.ofNat 19 (s.control.ringBase + 8 * s.ring.producer)) (x.word 0)
          ring := { s.ring with
            records := { x with
              missed := s.ring.missed
              solitaryLoss := s.ring.solitaryLoss
              layoutReset := s.ring.layoutReset } :: rest
            missed := 0
            solitaryLoss := false
            layoutReset := false
            progress := some 0 } })
    ∧ (s.ring.progress = .none → (s.ring.producer + 1) % s.control.capacity = s.control.consumer →
      exec .ringWordStart s = .next s)
    ∧ field (x.word 0) 0 8 = x.id.toNat ∧ field (x.word 0) 8 5 = x.origin.val
    ∧ field (x.word 0) 13 3 = (match x.cls with
        | .short => 0
        | .bridge => 1
        | .reverse => 2
        | .multi => 3
        | .feedSag => 4
        | .undervolt => 5)
    ∧ x.word 1 = BitVec.ofNat 16 (x.duration % 65536)
    ∧ field (x.word 2) 0 8 = x.missed % 256 ∧ field (x.word 2) 8 5 = (x.count - 1) % 32
    ∧ (x.word 2).getLsbD 13 = x.anySaturated ∧ (x.word 2).getLsbD 14 = x.solitaryLoss
    ∧ (x.word 2).getLsbD 15 = x.layoutReset
    ∧ ∀ code : Nat → Nat, (∀ d : Nat, code d = if x.members.getLsbD d = false then 0
        else if x.restored.getLsbD d = false then (if x.lockouts.getLsbD d = false then 1 else 3)
        else if x.lockouts.getLsbD d = false then 2 else 4) →
      ∀ k : Fin 16, ((x.word 3).toNat + 2 ^ 16 * (x.word 4).toNat + 2 ^ 32 * (x.word 5).toNat
          + 2 ^ 48 * (x.word 6).toNat + 2 ^ 64 * (x.word 7).toNat) / 2 ^ (5 * k.val) % 32
        = code (2 * k.val) + 5 * code (2 * k.val + 1)

/-- RING_WORD_COMPLETE writes the word; only at word 7 the producer moves and a waiting slot is accepted. For
every state with RESET not held and a ring word v at a in flight, word i of 0 to 7, there is u: the state
with the face IDLE, memory holding v at a, and only the Ring Writer and slots otherwise changed. Below word
7 the progress becomes i + 1 and all else of the Ring Writer and the slots stands. At word 7 the producer
becomes producer + 1 modulo capacity, the head record leaves, no record is in progress, and the record of
the first slot waiting in CLOSING, if there is room, is appended and that slot is FREE. With no access
WAITING, RING_WORD_COMPLETE answers next of u. A WAITING access is then carried out on u and WAIT is
released: an owner read or write takes the face and reads or writes memory after v; an intent write takes
the face and is taken by the Image Decoder; an intent read is SERVED from the copy, leaving the face IDLE,
if its word is marked and passes its check, and otherwise takes the face and reads memory, a check error
being taken first. -/
def Obligations.RingWordCompleteAdvancesProducerAtWordSeven : Prop :=
  ∀ (s : State) (a : WordAddr) (v : Word) (i : Nat), s.inReset = false → s.face = .ring a v →
    s.ring.progress = some i → i ≤ 7 →
    ∃ u : State, u = { s with
        face := .idle
        mem := Memory.write s.mem a .both v
        ring := u.ring
        slots := u.slots }
      ∧ (i < 7 → u.ring = { s.ring with progress := some (i + 1) } ∧ u.slots = s.slots)
      ∧ (i = 7 → u.ring.producer = (s.ring.producer + 1) % s.control.capacity
          ∧ u.ring.progress = .none ∧ u.ring.missed = s.ring.missed
          ∧ (s.ring.closing = [] → u.ring.records = s.ring.records.drop 1 ∧ u.slots = s.slots)
          ∧ (∀ (n : SlotId) (rest : List SlotId), s.ring.closing = n :: rest →
              (s.ring.records.drop 1).length < 4 →
              u.ring.records = s.ring.records.drop 1 ++ [(s.slot n).record] ∧ u.ring.closing = rest
              ∧ (u.slot n).state = .free ∧ (u.slot n).members = []
              ∧ ∀ m : SlotId, m ≠ n → u.slot m = s.slot m))
      ∧ ((∀ r : Request, s.access ≠ .waiting r) → exec .ringWordComplete s = .next u)
      ∧ (∀ r : Request, s.access = .waiting r → ∃ t : State, exec .ringWordComplete s = .next t
        ∧ (refAt s.windowBase r.addr = .owner → r.op = .read →
          t = { u with
            face := .host
            access := .onFace r
            readData := onLanes r.lanes (Memory.word u.mem r.addr) })
        ∧ (∀ x : Word, refAt s.windowBase r.addr = .owner → r.op = .write x →
          t = { u with face := .host, access := .onFace r, mem := Memory.write u.mem r.addr r.lanes x })
        ∧ (∀ (q : IntentPos) (x : Word), refAt s.windowBase r.addr = .intent q → r.op = .write x →
          t = ({ u with face := .host, access := .onFace r } : State).takeIntentWrite q x r.lanes)
        ∧ (∀ q : IntentPos, refAt s.windowBase r.addr = .intent q → r.op = .read →
          (s.marked q = true → s.ofInvalid q = false →
            (∀ d : DistrictId, districtOf q = some d → s.passes d) →
            t = { u with access := .served r, readData := onLanes r.lanes (s.copy q) })
          ∧ (s.marked q = false ∨ s.ofInvalid q = true →
            t = { u with
              face := .host
              access := .onFace r
              readData := onLanes r.lanes (Memory.word u.mem r.addr) })
          ∧ (∀ d : DistrictId, districtOf q = some d → s.marked q = true → ¬s.passes d →
            t = { u.raiseCheck d with
              face := .host
              access := .onFace r
              readData := onLanes r.lanes (Memory.word u.mem r.addr) }))
        ∧ (refAt s.windowBase r.addr = .owner ∨ (∃ q : IntentPos, refAt s.windowBase r.addr = .intent q) →
          t.waitAsserted = false))

/-- HOLD_ASSERT returns every RAMPING and REVERSING district to the queue, and PROVING and LIVE districts stand.
For every state with RESET not held and HOLD released: HOLD_ASSERT answers next t with HOLD asserted, no
district RAMPING or REVERSING, and every PROVING or LIVE district still in its state with its timers as they
were. Each RAMPING or REVERSING district that passes its check is QUEUED and in the queue with level 0,
attempt count, polarity, flags and words kept; its mark is kept from RAMPING and on from REVERSING; the
engine that held it is IDLE. Where d alone is in those states, t is the end of a claim at d on a state in
which d stands directly after the last entry of lower priority number, no stress account and no other
context or slot has changed, the engaged count of its engine's feed is 1 lower, and for REVERSING engines
and feeds stand. Control words, adjacency, nodes, lines, the exchange and memory stand. -/
def Obligations.HoldAssertLeavesNoRampOrFlip : Prop :=
  ∀ s : State, s.inReset = false → s.hold = false → ∃ t : State, exec .holdAssert s = .next t
    ∧ t.hold = true
    ∧ (∀ d : DistrictId, (t.dist d).state ≠ .ramping ∧ (t.dist d).state ≠ .reversing)
    ∧ (∀ d : DistrictId, (s.dist d).state = .proving ∨ (s.dist d).state = .live →
        (t.dist d).state = (s.dist d).state ∧ (t.dist d).provingTimer = (s.dist d).provingTimer
        ∧ (t.dist d).quietTimer = (s.dist d).quietTimer)
    ∧ (∀ d : DistrictId, (s.dist d).state = .ramping ∨ (s.dist d).state = .reversing → s.passes d →
        (t.dist d).state = .queued ∧ d ∈ t.queue ∧ (t.dist d).level = 0
        ∧ ((s.dist d).state = .ramping → (t.dist d).mark = (s.dist d).mark)
        ∧ ((s.dist d).state = .reversing → (t.dist d).mark = true)
        ∧ (t.dist d).attempts = (s.dist d).attempts ∧ (t.dist d).polarity = (s.dist d).polarity
        ∧ (t.dist d).flags = (s.dist d).flags ∧ (t.dist d).words = (s.dist d).words)
    ∧ (∀ (d : DistrictId) (e : EngineId), (s.dist d).state = .ramping → s.passes d → s.engineOf d = some e →
        (t.engine e).district = .none ∧ (t.engine e).index = 0 ∧ (t.engine e).stalls = 0
        ∧ (t.engine e).timer = .none)
    ∧ (∀ d : DistrictId, (∀ e : DistrictId, (s.dist e).state = .ramping ∨ (s.dist e).state = .reversing ↔ e = d) →
        s.passes d → ∃ (u w : State) (before after : List DistrictId), u = { s with hold := true }
        ∧ t = u.finish d w ∧ ReturnPlace s d before after ∧ w.queue = before ++ d :: after
        ∧ (w.dist d).state = .queued ∧ (∀ e : DistrictId, e ≠ d → w.dist e = s.dist e) ∧ w.slots = s.slots
        ∧ (∀ k : FeedId, (w.feed k).stress = (s.feed k).stress)
        ∧ (∀ e : EngineId, (s.dist d).state = .ramping → s.engineOf d = some e →
          (w.feed (s.engine e).feed).engaged = (s.feed (s.engine e).feed).engaged - 1)
        ∧ ((s.dist d).state = .reversing → w.engines = s.engines ∧ w.feeds = s.feeds))
    ∧ t.control = s.control ∧ t.adjacency = s.adjacency ∧ t.nodes = s.nodes ∧ t.lines = s.lines
    ∧ t.exchange = s.exchange ∧ t.mem = s.mem

/-- HOLD_RELEASE scans: each time the first admissible entry takes the lowest IDLE engine, until none is IDLE or
no entry is admissible. For every state with RESET not held and HOLD asserted: if no queued district passes
R69 once HOLD is released, HOLD_RELEASE answers next of the state with HOLD released alone. If d, in no
incident, is the only entry of the queue, passes the four tests and its check, has 2 or more ramp steps, and
e is the lowest IDLE engine, it answers next t in which d is RAMPING on e at step 1 with duty floor(16 / n),
its mark kept, the queue empty, the feed's stress raised by its weight, its engaged count by 1, and d newest
in its history. With any queue and engines that agree with the states (R64, R74), t is where a scan of R70
ends: each time the first admissible entry from the head is offered the lowest IDLE engine, the entries
before it keep their places, and the dispatcher scans again with the raised counts. Each offer is a grant
with all of R71; or, where the check fails, d goes to CHECK_HOLD with the engine IDLE and the feed as it was
(R72); or, with one ramp step, d goes on to PROVING at level 16, its attempt counted if marked, the engine
IDLE again (R76). The notice of each change comes before the scan goes on (log 6). -/
def Obligations.HoldReleaseIsOccasionForScan : Prop :=
  ∀ s : State, s.inReset = false → s.hold = true →
    ((∀ d ∈ s.queue, ({ s with hold := false } : State).admissible d = false) →
      exec .holdRelease s = .next { s with hold := false })
    ∧ (∀ (d : DistrictId) (e : EngineId), s.queue = [d] → (s.dist d).incidentSlot = .none → s.passes d →
      (s.feed (s.dist d).feed).state = .up →
      (s.feed (s.dist d).feed).engaged < (s.feed (s.dist d).feed).concurrencyRamps →
      (s.feed (s.dist d).feed).stress + (s.dist d).weight ≤ (s.feed (s.dist d).feed).ceilingUnits →
      2 ≤ (s.dist d).steps → (s.engine e).district = .none →
      (∀ f : EngineId, f < e → (s.engine f).district ≠ .none) →
      ∃ t : State, exec .holdRelease s = .next t ∧ t.hold = false ∧ t.queue = []
        ∧ (t.dist d).state = .ramping ∧ (t.dist d).level = 16 * 1 / (s.dist d).steps
        ∧ (t.dist d).mark = (s.dist d).mark ∧ (t.engine e).district = some d
        ∧ (t.engine e).feed = (s.dist d).feed ∧ (t.engine e).steps = (s.dist d).steps
        ∧ (t.engine e).interval = (s.dist d).interval ∧ (t.engine e).ceiling = (s.dist d).ceiling
        ∧ (t.engine e).index = 1 ∧ (t.engine e).stalls = 0 ∧ (t.engine e).reading = .none
        ∧ (t.engine e).timer = some ((s.dist d).interval * 1000)
        ∧ (∀ f : EngineId, f ≠ e → t.engine f = s.engine f)
        ∧ (t.feed (s.dist d).feed).stress = (s.feed (s.dist d).feed).stress + (s.dist d).weight
        ∧ (t.feed (s.dist d).feed).engaged = (s.feed (s.dist d).feed).engaged + 1
        ∧ (t.feed (s.dist d).feed).history.getLast? = some d
        ∧ (∀ k : FeedId, k ≠ (s.dist d).feed → t.feed k = s.feed k)
        ∧ (∀ f : DistrictId, f ≠ d → t.dist f = s.dist f) ∧ t.slots = s.slots ∧ t.mem = s.mem)
    ∧ (RestartAgrees s → ∃ t : State, exec .holdRelease s = .next t ∧ ScanEnds { s with hold := false } t)

/-- A line going low takes its feed to DOWN with the settle timer stopped; going high, DOWN to SETTLING. For
every state with RESET not held and feed k. Line high: BOOSTER_LINE_LOW answers next t with line k low, feed
k DOWN, its settle timer stopped, and every other feed's state and line kept; control words, nodes and
memory stand; if feed k was not UP, or no district ramps or reverses on it, nothing else changes. Line low
and feed DOWN: BOOSTER_LINE_HIGH answers next of the state with the line high and feed k SETTLING, its timer
started for the settle time in force, alone. -/
def Obligations.BoosterLineMovesItsFeed : Prop :=
  ∀ (s : State) (k : FeedId), s.inReset = false →
    (s.line k = true → ∃ t : State, exec (.boosterLineLow k) s = .next t ∧ t.line k = false
      ∧ (t.feed k).state = .down ∧ (t.feed k).settleTimer = .none
      ∧ (∀ j : FeedId, j ≠ k → (t.feed j).state = (s.feed j).state ∧ t.line j = s.line j)
      ∧ t.control = s.control ∧ t.nodes = s.nodes ∧ t.mem = s.mem
      ∧ ((s.feed k).state ≠ .up ∨ s.onFeedLeaving k = [] → t =
          { s with
            lines := put s.lines k false
            feeds := put s.feeds k { s.feed k with state := .down, settleTimer := .none } }))
    ∧ (s.line k = false → (s.feed k).state = .down → exec (.boosterLineHigh k) s = .next
        { s with
          lines := put s.lines k true
          feeds := put s.feeds k
            { s.feed k with
              state := .settling
              settleTimer := some (field (s.feed k).settleTime 0 8 * 100000)
              settleRestarted := false } })

/-- A feed going DOWN returns its RAMPING and REVERSING districts ahead of their priority: mark kept, or on from
a flip, no attempt counted. RAMPING: for every state with RESET not held, line k high, feed k UP, and
exactly one district d ramping on feed k, held by engine e that took feed k, none reversing on it, d passing
its check: BOOSTER_LINE_LOW answers next of the end of a claim at d from some u on some t: d is QUEUED with
level 0, mark, count, polarity and flags kept, placed before the first entry of its own priority; e is IDLE;
the engaged count is 1 lower and the stress account as it was. REVERSING: with d the only district reached,
its context naming feed k, it answers next of the end of a claim at d from u, in which line and feed alone
have changed, on t: d is QUEUED at its new polarity with level 0, the mark on, FLIPPED and the rest of its
context kept, before every entry of its own priority; engines, accounts and everything else stand. A
solitary district's role becomes none (log 18). -/
def Obligations.FeedLossReturnsRampAheadOfPriority : Prop :=
  (∀ (s : State) (k : FeedId) (d : DistrictId) (e : EngineId), s.inReset = false → s.line k = true →
    (s.feed k).state = .up → s.onFeedLeaving k = [d] → (s.dist d).state = .ramping →
    s.engineOf d = some e → (s.engine e).feed = k → s.passes d →
    ∃ u t : State, exec (.boosterLineLow k) s = .next (u.finish d t)
      ∧ (u.feed k).state = .down ∧ u.line k = false ∧ u.districts = s.districts ∧ u.queue = s.queue
      ∧ (t.dist d).state = .queued ∧ (t.dist d).level = 0 ∧ (t.dist d).mark = (s.dist d).mark
      ∧ (t.dist d).attempts = (s.dist d).attempts ∧ (t.dist d).polarity = (s.dist d).polarity
      ∧ (t.dist d).flags = (s.dist d).flags
      ∧ (∃ before after : List DistrictId, s.queue = before ++ after ∧ t.queue = before ++ d :: after
          ∧ (∀ q ∈ after, (s.dist d).priority ≤ (s.dist q).priority)
          ∧ (∀ q ∈ before.getLast?, (s.dist q).priority < (s.dist d).priority))
      ∧ (t.engine e).district = .none ∧ (t.engine e).index = 0 ∧ (t.engine e).stalls = 0
      ∧ (t.engine e).timer = .none ∧ (t.feed k).engaged = (s.feed k).engaged - 1
      ∧ (t.feed k).stress = (s.feed k).stress ∧ (∀ f : DistrictId, f ≠ d → t.dist f = s.dist f)
      ∧ t.slots = s.slots)
  ∧ ∀ (s : State) (k : FeedId) (d : DistrictId), s.inReset = false → s.line k = true →
    (s.feed k).state = .up → s.onFeedLeaving k = [d] → (s.dist d).state = .reversing → (s.dist d).feed = k →
    s.passes d →
    ∃ (u t : State) (before after : List DistrictId), exec (.boosterLineLow k) s = .next (u.finish d t)
      ∧ ReturnPlace s d before after
      ∧ u = { s with
          lines := put s.lines k false
          feeds := put s.feeds k { s.feed k with state := .down, settleTimer := .none } }
      ∧ t = { u with
          queue := before ++ d :: after
          districts := put s.districts d { s.dist d with
            state := .queued
            level := 0
            mark := true
            role := if (s.dist d).incidentSlot = .none then .none else (s.dist d).role
            holdoffTimer := .none
            provingTimer := .none
            quietTimer := .none } }

/-- Settle expiry takes SETTLING to UP; drain expiry lowers every account by 1 and restarts the timer; each
scans. For every state with RESET not held. Feed k SETTLING with its timer running: SETTLE_EXPIRY answers
next of the scan of the state with feed k UP and its timer stopped; where a sag notice has started the timer
again in the same microsecond, that expiry does not happen, and only the note of it is cleared (the note,
kept until time passes, is the model's own bit, log 2). DRAIN_EXPIRY answers next of the scan, or where no
account falls of the state itself, with every stress account 1 lower (0 staying 0) and the drain timer
started for the period in force, and nothing else changed. -/
def Obligations.SettleAndDrainExpiriesThenScan : Prop :=
  ∀ s : State, s.inReset = false →
    (∀ k : FeedId, (s.feed k).state = .settling → (s.feed k).settleTimer.isSome = true →
      ((s.feed k).settleRestarted = false → exec (.settleExpiry k) s = .next (({ s with
        feeds := put s.feeds k { s.feed k with state := .up, settleTimer := .none } } : State).scan))
      ∧ ((s.feed k).settleRestarted = true → exec (.settleExpiry k) s = .next
        { s with feeds := put s.feeds k { s.feed k with settleRestarted := false } }))
    ∧ ∃ u : State, u.drainTimer = some (field s.control.drainPeriod 0 8 * 10000)
      ∧ (∀ k : FeedId, u.feed k = { s.feed k with stress := (s.feed k).stress - 1 })
      ∧ u = { s with feeds := u.feeds, drainTimer := u.drainTimer }
      ∧ ((∃ k : FeedId, 0 < (s.feed k).stress) → exec .drainExpiry s = .next u.scan)
      ∧ ((∀ k : FeedId, (s.feed k).stress = 0) → exec .drainExpiry s = .next u)

/-- Hold-off expiry takes a SUSPECT member to GATED, and a FOLLOWER or solitary district to QUEUED with mark on.
For every state with RESET not held and a district in HOLDOFF with its timer running and passing its check:
HOLDOFF_EXPIRY answers next of the end of a claim at d on some u. A SUSPECT member of a slot is GATED in u
with the mark off and the queue standing; any other is QUEUED with the mark on, placed after the last entry
of equal or lower priority number. Level 0, count kept; engines, feeds and slots stand. The notice: a
SUSPECT member of a RECOVERING slot whose gate another member shuts stays GATED, and nothing else changes;
with no other member shutting the gate and no suspect before it in the suspect order GATED, it is released
at once, QUEUED with the mark on by a normal entry, and the scan follows. That an expiry command for a timer
that does not run changes nothing is the model's choice (log 2). -/
def Obligations.HoldoffExpiryQueuesOrGatesDistrict : Prop :=
  ∀ (s : State) (d : DistrictId), s.inReset = false → s.passes d →
    ((s.dist d).state = .holdoff → (s.dist d).holdoffTimer.isSome = true →
      ∃ u : State, exec (.holdoffExpiry d) s = .next (s.finish d u)
        ∧ ((s.dist d).incidentSlot.isSome = true ∧ (s.dist d).role = .suspect →
            (u.dist d).state = .gated ∧ (u.dist d).mark = false ∧ u.queue = s.queue)
        ∧ (¬((s.dist d).incidentSlot.isSome = true ∧ (s.dist d).role = .suspect) →
            (u.dist d).state = .queued ∧ (u.dist d).mark = true
            ∧ ∃ before after : List DistrictId, s.queue = before ++ after ∧ u.queue = before ++ d :: after
              ∧ (∀ q ∈ after, (s.dist d).priority < (s.dist q).priority)
              ∧ (∀ q ∈ before.getLast?, (s.dist q).priority ≤ (s.dist d).priority))
        ∧ (u.dist d).level = 0 ∧ (u.dist d).holdoffTimer = .none
        ∧ (u.dist d).attempts = (s.dist d).attempts ∧ u.engines = s.engines ∧ u.feeds = s.feeds
        ∧ u.slots = s.slots ∧ (∀ e : DistrictId, e ≠ d → u.dist e = s.dist e) ∧ u.mem = s.mem)
    ∧ ((s.dist d).holdoffTimer = .none → exec (.holdoffExpiry d) s = .next s)
    ∧ (∀ n : SlotId, (s.dist d).state = .holdoff → (s.dist d).holdoffTimer.isSome = true →
      (s.dist d).incidentSlot = some n → (s.dist d).role = .suspect → (s.slot n).state = .recovering →
      ((∃ m ∈ (s.slot n).members, m.district ≠ d ∧ ShutsGate s m) →
        exec (.holdoffExpiry d) s = .next (s.modDist d (fun x =>
          { x with
            state := .gated
            level := 0
            mark := false
            holdoffTimer := .none
            provingTimer := .none
            quietTimer := .none })))
      ∧ (∀ pre post : List DistrictId, (∀ m ∈ (s.slot n).members, m.district ≠ d → ¬ShutsGate s m) →
        (∃ m ∈ (s.slot n).members, m.district = d ∧ m.role = .suspect) →
        (s.slot n).suspects = pre ++ d :: post → (∀ q ∈ pre, (s.dist q).state ≠ .gated) →
        ∃ before after : List DistrictId, NormalPlace s d before after
          ∧ exec (.holdoffExpiry d) s = .next (({ s.modDist d (fun x =>
              { x with
                state := .queued
                level := 0
                mark := true
                holdoffTimer := .none
                provingTimer := .none
                quietTimer := .none }) with queue := before ++ d :: after } : State).scan)))

/-- Proving expiry takes PROVING to LIVE, RESTORED latched if marked; quiet expiry clears the attempt count. For
every state with RESET not held and a district passing its check. PROVING with its timer running:
PROVING_EXPIRY answers next of the end of a claim at d on some u: LIVE, level 16, mark off, quiet timer
started for the interval in force, count kept; with the mark on RESTORED is latched and d joins its open
slot's restored set, with it off flags and slots stand. The notice, for a member of RECOVERING slot n: if
every other member is settled, the slot closes: slot and role of its members none, open count 1 lower, no
state but d's changed; with 4 records pending it stays CLOSING, holding its elapsed count, last in the
waiting list; with room and no slot waiting its record is appended (id, class, origin, count, member,
restored and lockout sets, duration, any-saturated) and it is FREE. If no other member shuts the gate and q
is the first GATED suspect, passing its check, q is released: QUEUED with the mark on by a normal entry, and
the scan follows. LIVE with its quiet timer running: QUIET_EXPIRY answers next of the state with d's count 0
and the timer stopped, alone. -/
def Obligations.ProvingAndQuietExpiriesSettleDistrict : Prop :=
  ∀ (s : State) (d : DistrictId), s.inReset = false → s.passes d →
    ((s.dist d).state = .proving → (s.dist d).provingTimer.isSome = true →
      ∃ u : State, exec (.provingExpiry d) s = .next (s.finish d u)
        ∧ (u.dist d).state = .live ∧ (u.dist d).level = 16 ∧ (u.dist d).mark = false
        ∧ (u.dist d).provingTimer = .none
        ∧ (u.dist d).quietTimer = some (field s.control.quietInterval 0 8 * 1000000)
        ∧ (u.dist d).attempts = (s.dist d).attempts ∧ (u.dist d).polarity = (s.dist d).polarity
        ∧ ((s.dist d).mark = true → (u.dist d).flags = { (s.dist d).flags with restored := true }
            ∧ ∀ n : SlotId, s.openSlotOf d = some n →
              u.slot n = { s.slot n with restored := (s.slot n).restored ||| BitVec.twoPow 32 d.val })
        ∧ ((s.dist d).mark = false → (u.dist d).flags = (s.dist d).flags ∧ u.slots = s.slots)
        ∧ u.queue = s.queue ∧ u.engines = s.engines ∧ u.feeds = s.feeds
        ∧ (∀ e : DistrictId, e ≠ d → u.dist e = s.dist e))
    ∧ ((s.dist d).state = .live → (s.dist d).quietTimer.isSome = true →
      exec (.quietExpiry d) s =
        .next (s.modDist d (fun x => { x with attempts := 0, quietTimer := .none })))
    ∧ (∀ n : SlotId, (s.dist d).state = .proving → (s.dist d).provingTimer.isSome = true →
      (s.dist d).incidentSlot = some n → (s.slot n).state = .recovering →
      (∃ m ∈ (s.slot n).members, m.district = d) →
      ((∀ m ∈ (s.slot n).members, m.district ≠ d → (s.dist m.district).state.settled = true) →
        ∃ t : State, exec (.provingExpiry d) s = .next t ∧ (t.dist d).state = .live
          ∧ (∀ m ∈ (s.slot n).members, (s.dist m.district).incidentSlot = some n →
              (t.dist m.district).incidentSlot = .none ∧ (t.dist m.district).role = .none)
          ∧ (∀ e : DistrictId, e ≠ d → (t.dist e).state = (s.dist e).state) ∧ t.queue = s.queue
          ∧ t.engines = s.engines ∧ t.feeds = s.feeds ∧ (∀ m : SlotId, m ≠ n → s.ring.closing = [] →
              t.slot m = s.slot m)
          ∧ (4 ≤ s.ring.records.length → (t.slot n).state = .closing
              ∧ (t.slot n).elapsed = (s.slot n).elapsed ∧ (t.slot n).members = (s.slot n).members
              ∧ t.ring = { s.ring with closing := s.ring.closing ++ [n] } ∧ t.openCount + 1 = s.openCount)
          ∧ (s.ring.records.length < 4 → s.ring.closing = [] → (t.slot n).state = .free
              ∧ (t.slot n).members = [] ∧ t.openCount + 1 = s.openCount
              ∧ ∃ r : Record, t.ring = { s.ring with records := s.ring.records ++ [r] }
                ∧ r.id = (s.slot n).id ∧ (∀ c : IncidentClass, (s.slot n).cls = some c → r.cls = c)
                ∧ (∀ o : DistrictId, (s.slot n).origin = some o → r.origin = o)
                ∧ r.count = (s.slot n).members.length
                ∧ (∀ e : DistrictId, r.members.getLsbD e.val =
                    (s.slot n).members.any (fun m => m.district == e))
                ∧ r.restored = (if (s.dist d).mark then
                    (s.slot n).restored ||| BitVec.twoPow 32 d.val else (s.slot n).restored)
                ∧ r.lockouts = (s.slot n).lockouts ∧ r.duration = (s.slot n).elapsed
                ∧ r.anySaturated = (s.slot n).anySaturated))
      ∧ (∀ (q : DistrictId) (pre post : List DistrictId),
        (∀ m ∈ (s.slot n).members, m.district ≠ d → ¬ShutsGate s m) →
        (∃ m ∈ (s.slot n).members, m.district = q ∧ m.role = .suspect) → (s.dist q).state = .gated →
        s.passes q → (s.slot n).suspects = pre ++ q :: post → (∀ e ∈ pre, (s.dist e).state ≠ .gated) →
        ∃ (w : State) (before after : List DistrictId), exec (.provingExpiry d) s = .next w.scan
          ∧ (w.dist d).state = .live ∧ (w.dist q).state = .queued ∧ (w.dist q).mark = true
          ∧ (w.dist q).level = 0 ∧ (w.dist q).role = (s.dist q).role
          ∧ (w.dist q).attempts = (s.dist q).attempts ∧ NormalPlace s q before after
          ∧ w.queue = before ++ q :: after ∧ w.engines = s.engines ∧ w.feeds = s.feeds
          ∧ (∀ e : DistrictId, e ≠ d → e ≠ q → w.dist e = s.dist e)))

/-- Gathering timer expiry: with round-seen clear the slot waits; with it set the slot closes and roles are
fixed. For every state with RESET not held and a GATHERING slot n with its timer running. Round-seen clear:
GATHERING_TIMER_EXPIRY answers next of the state with the timer stopped alone. Round-seen set: it answers
next t with slot n no longer GATHERING; if its one member is d, TRIPPED, not withdrawn, cut for a fault, not
reversing, intent ON, count below the limit, passing its check, then in t class SHORT, origin d, suspect
order d, slot RECOVERING, and d SUSPECT in HOLDOFF for min(base x 2^count, 255) x 100 ms. In general it
answers next of what follows the close (R44, R47, scan, sag notices) on some u in which: the origin is the
first candidate in stamp order; class and roles are those of the first row of R41 that holds, for REVERSE,
SHORT, BRIDGE, MULTI, FEED_SAG with its blamed members, and UNDERVOLT, which all withdrawn give too with the
first entry as origin; the suspects stand in stamp order; and each district with one entry and slot n has
the state of R43: kept without a check if not TRIPPED (log 8), CHECK_HOLD if its check fails, OFF withdrawn,
STOPPED for ON_MANUAL, LOCKOUT at the limit with flag, intent OFF, word 0 marked where valid, and lockout
set, a FLIP REVERSING at the other polarity or QUEUED under HOLD or with its feed not UP, any other HOLDOFF.
If every member is settled in u, the slot is CLOSING or already FREE. Only a FEED_SAG close gives sag
notices, and to the sagged feeds alone: DOWN stands; UP and SETTLING feeds are SETTLING with the settle
timer started from its beginning; a district ramping on a feed that was UP, its context naming it, is QUEUED
with level 0, mark and count kept, its engine taken from it, where queue and engines agree with the states
(R64, R74). The scan of the close comes before the sag notices, and each notice's scans before the next (log
6); their order is free (log 5). -/
def Obligations.GatheringTimerClosesSlotAfterRound : Prop :=
  ∀ (s : State) (n : SlotId), s.inReset = false → (s.slot n).state = .gathering →
    (s.slot n).timer.isSome = true →
    ((s.slot n).roundSeen = false →
      exec (.gatheringTimerExpiry n) s = .next (s.modSlot n (fun x => { x with timer := .none })))
    ∧ ((s.slot n).roundSeen = true → ∃ t : State, exec (.gatheringTimerExpiry n) s = .next t
      ∧ (t.slot n).state ≠ .gathering ∧ t.control = s.control ∧ t.mem = s.mem ∧ t.nodes = s.nodes
      ∧ ∀ (d : DistrictId) (m : Member), (s.slot n).members = [m] → m.district = d →
        m.withdrawn = false → m.cause ≠ .undervoltage → (s.dist d).state = .tripped →
        (s.dist d).reversing = false → (s.dist d).intent = .on →
        (s.dist d).attempts ≠ s.control.limit → s.passes d → (s.dist d).incidentSlot = some n →
        (t.slot n).state = .recovering ∧ (t.slot n).cls = some .short ∧ (t.slot n).origin = some d
        ∧ (t.slot n).suspects = [d] ∧ (t.slot n).members = [{ m with role := .suspect }]
        ∧ (t.dist d).state = .holdoff ∧ (t.dist d).role = .suspect ∧ (t.dist d).mark = false
        ∧ (t.dist d).holdoffTimer =
            some (min (field s.control.holdoffBase 0 8 * 2 ^ (s.dist d).attempts) 255 * 100000)
        ∧ (t.dist d).attempts = (s.dist d).attempts ∧ t.queue = s.queue
        ∧ (∀ e : DistrictId, e ≠ d → t.dist e = s.dist e))
    ∧ ((s.slot n).roundSeen = true → ∀ l active faults : List Member, l = (s.slot n).members →
      active = l.filter (fun m => !m.withdrawn) →
      faults = l.filter (fun m => !m.withdrawn && m.cause != .undervoltage) →
      ∃ u : State, exec (.gatheringTimerExpiry n) s =
          .next ((s.modSlot n (fun x => { x with timer := .none })).afterClose n u)
        ∧ (u.slot n).state = .recovering
        ∧ (active = [] → (u.slot n).cls = some .undervolt ∧ (u.slot n).members = l
            ∧ (u.slot n).origin = l.head?.map Member.district)
        ∧ (∀ m ∈ (if faults = [] then active else faults),
            (∀ p ∈ (if faults = [] then active else faults), p ≠ m → StampBefore (s.slot n).anchor m p) →
            (u.slot n).origin = some m.district)
        ∧ (∃ order : List Member, (u.slot n).suspects = order.map Member.district
            ∧ order.Perm ((u.slot n).members.filter (fun m => m.role == .suspect))
            ∧ order.Pairwise (fun x y => ¬StampBefore (s.slot n).anchor y x))
        ∧ (∀ m : Member, faults = [m] → (s.dist m.district).reversing = true →
            (u.slot n).cls = some .reverse
            ∧ (u.slot n).members = l.map (fun p => if p.withdrawn then p else
                { p with role := if p.district = m.district then .flip else .follower }))
        ∧ (∀ m : Member, faults = [m] → (s.dist m.district).reversing = false →
            (u.slot n).cls = some .short
            ∧ (u.slot n).members = l.map (fun p => if p.withdrawn then p else
                { p with role := if p.district = m.district then .suspect else .follower }))
        ∧ (∀ m p f : Member, faults = [m, p] → Bridged s m.district p.district → f = m ∨ f = p →
            (s.dist f.district).reversing = true →
            ((s.dist m.district).reversing = false ∨ (s.dist p.district).reversing = false) →
            (u.slot n).cls = some .reverse
            ∧ (u.slot n).members = l.map (fun q => if q.withdrawn then q else
                { q with role := if q.district = f.district then .flip else .follower }))
        ∧ (∀ m p : Member, faults = [m, p] → Bridged s m.district p.district →
            (s.dist m.district).reversing = (s.dist p.district).reversing → (u.slot n).cls = some .bridge)
        ∧ (2 ≤ faults.length → (∀ m p : Member, faults = [m, p] → ¬Bridged s m.district p.district) →
            (u.slot n).cls = some .multi)
        ∧ ((u.slot n).cls = some .bridge ∨ (u.slot n).cls = some .multi →
            (u.slot n).members = l.map (fun p => if p.withdrawn then p else
              { p with role :=
                  if faults.any (fun m => m.district == p.district) then .suspect else .follower }))
        ∧ (faults = [] → active ≠ [] → (∃ k : FeedId, Sagged s l k) → (u.slot n).cls = some .feedSag
            ∧ (u.slot n).members.map Member.district = l.map Member.district
            ∧ ∀ m ∈ l, m.withdrawn = false →
              (Blamed s l m.district → { m with role := .suspect } ∈ (u.slot n).members)
              ∧ (¬Blamed s l m.district → { m with role := .follower } ∈ (u.slot n).members))
        ∧ (faults = [] → active ≠ [] → (∀ k : FeedId, ¬Sagged s l k) → (u.slot n).cls = some .undervolt
            ∧ (u.slot n).members = l.map (fun p => if p.withdrawn then p else { p with role := .follower }))
        ∧ (∀ m ∈ (u.slot n).members, ∀ d : DistrictId, d = m.district →
            (l.filter (fun p => p.district == d)).length = 1 → (s.dist d).incidentSlot = some n →
            ((s.dist d).state ≠ .tripped → u.dist d =
                { s.dist d with role := if m.withdrawn then (s.dist d).role else m.role })
            ∧ ((s.dist d).state = .tripped → ¬s.passes d →
                (u.dist d).state = .checkHold ∧ (u.dist d).invalid = true)
            ∧ ((s.dist d).state = .tripped → s.passes d → m.withdrawn = true →
                (u.dist d).state = .off ∧ (u.dist d).level = 0 ∧ (u.dist d).mark = false)
            ∧ ((s.dist d).state = .tripped → s.passes d → m.withdrawn = false →
                (u.dist d).role = m.role ∧ (u.dist d).attempts = (s.dist d).attempts
                ∧ ((s.dist d).intent = .onManual → (u.dist d).state = .stopped)
                ∧ ((s.dist d).intent ≠ .onManual → (s.dist d).attempts = s.control.limit →
                    (u.dist d).state = .lockout ∧ (u.dist d).flags.lockoutEntered = true
                    ∧ (u.dist d).intent = .off ∧ (u.slot n).lockouts.getLsbD d.val = true
                    ∧ ((s.dist d).invalid = false → IntentPos.district d 0 ∈ u.corrections))
                ∧ ((s.dist d).intent ≠ .onManual → (s.dist d).attempts ≠ s.control.limit →
                    (m.role = .flip → (u.dist d).flags.flipped = true ∧ (u.dist d).mark = true
                      ∧ (u.dist d).polarity ≠ (s.dist d).polarity
                      ∧ (s.hold = false ∧ (s.feed (s.dist d).feed).state = .up →
                          (u.dist d).state = .reversing ∧ (u.dist d).level = 16)
                      ∧ (s.hold = true ∨ (s.feed (s.dist d).feed).state ≠ .up →
                          (u.dist d).state = .queued ∧ (u.dist d).level = 0 ∧ d ∈ u.queue))
                    ∧ (m.role ≠ .flip → (u.dist d).state = .holdoff ∧ (u.dist d).level = 0
                      ∧ (u.dist d).holdoffTimer = some
                          (min (field s.control.holdoffBase 0 8 * 2 ^ (s.dist d).attempts) 255
                            * 100000)))))
        ∧ (∀ before v : State, before = s.modSlot n (fun x => { x with timer := .none }) →
            v = before.rescan (settleSlot 33 n u) → ∃ t : State, exec (.gatheringTimerExpiry n) s = .next t
            ∧ ((u.slot n).cls ≠ some .feedSag → t = v)
            ∧ ((u.slot n).cls = some .feedSag → ∀ k : FeedId,
              (v.feed k).state = (s.feed k).state ∧ (v.feed k).settleTimer = (s.feed k).settleTimer
              ∧ (¬Sagged s l k ∨ (s.feed k).state = .down → (t.feed k).state = (s.feed k).state
                ∧ (t.feed k).settleTimer = (s.feed k).settleTimer)
              ∧ (Sagged s l k → (s.feed k).state ≠ .down → (t.feed k).state = .settling
                ∧ (t.feed k).settleTimer = some (field (s.feed k).settleTime 0 8 * 100000)
                ∧ (t.feed k).settleRestarted = decide ((s.feed k).state = .settling))
              ∧ (RestartAgrees s → Sagged s l k → (s.feed k).state = .up →
                ∀ (d : DistrictId) (e : EngineId), v.passes d →
                (v.dist d).feed = k → (v.engine e).district = some d → (v.engine e).feed = k →
                (v.dist d).state = .ramping → (∀ f : EngineId, f ≠ e → (v.engine f).district ≠ some d) →
                (t.dist d).state = .queued ∧ d ∈ t.queue ∧ (t.dist d).level = 0
                ∧ (t.dist d).mark = (v.dist d).mark ∧ (t.dist d).attempts = (v.dist d).attempts
                ∧ (t.engine e).district ≠ some d)))
        ∧ ((∀ m ∈ (u.slot n).members, (u.dist m.district).state.settled = true) →
            ∃ t : State, exec (.gatheringTimerExpiry n) s = .next t
              ∧ ((t.slot n).state = .closing ∨ (t.slot n).state = .free)))

/-- Step expiry: a fresh reading within the ceiling commands the next duty; otherwise the step stalls, up to 4
times. For every state with RESET not held and engine e holding d with its timer running. Fresh reading at
or below the ceiling and another step below n: STEP_TIMER_EXPIRY answers next of the state with the index 1
higher, stalls 0, reading stale, timer one interval, and d's level floor(16 x i / n), which is 1 to 15 for n
at most 16; nothing else but d's polled mark changes. No such reading and fewer than 4 stalls: one more
stall and the timer one interval, alone. -/
def Obligations.StepTimerPassesOrStallsStep : Prop :=
  ∀ (s : State) (e : EngineId) (d : DistrictId), s.inReset = false → (s.engine e).district = some d →
    (s.engine e).timer.isSome = true →
    (∀ r : Byte, (s.engine e).reading = some r → r.toNat ≤ (s.engine e).ceiling →
      (s.engine e).index + 1 < (s.engine e).steps →
      exec (.stepTimerExpiry e) s = .next
        ((s.modEngine e (fun x =>
          { x with
            index := x.index + 1
            stalls := 0
            reading := .none
            timer := some (x.interval * 1000) })).modDist d (fun x =>
          { x with level := 16 * ((s.engine e).index + 1) / (s.engine e).steps, polled := false }))
      ∧ ((s.engine e).steps ≤ 16 → 1 ≤ 16 * ((s.engine e).index + 1) / (s.engine e).steps
          ∧ 16 * ((s.engine e).index + 1) / (s.engine e).steps ≤ 15))
    ∧ ((∀ r : Byte, (s.engine e).reading = some r → (s.engine e).ceiling < r.toNat) →
      (s.engine e).stalls < 4 →
      exec (.stepTimerExpiry e) s = .next (s.modEngine e (fun x =>
        { x with stalls := x.stalls + 1, timer := some (x.interval * 1000) })))

/-- The last step brings PROVING at FULL; a fifth stall aborts the ramp with a STALL cut; both free the engine.
For every state with RESET not held and engine e, alone holding the RAMPING district d that passes its
check, timer running. Last step passing: STEP_TIMER_EXPIRY answers next of the end of a claim at d on some
u: PROVING, level 16, proving timer started, mark kept. Stall count 4 and no passing reading, d in no
incident, no slot GATHERING, n the lowest FREE slot: likewise with d TRIPPED, RAMP_STALLED and TRIPPED
latched, cause STALL, slot n opened with d its one member stamped with the time base. In both the attempt is
counted if marked, e is IDLE and the engaged count 1 lower. -/
def Obligations.StepTimerCompletesOrAbortsRamp : Prop :=
  ∀ (s : State) (e : EngineId) (d : DistrictId), s.inReset = false → (s.engine e).district = some d →
    (s.engine e).timer.isSome = true → (s.dist d).state = .ramping → s.passes d →
    (∀ f : EngineId, f ≠ e → (s.engine f).district ≠ some d) →
    ((∃ r : Byte, (s.engine e).reading = some r ∧ r.toNat ≤ (s.engine e).ceiling) →
      (s.engine e).steps ≤ (s.engine e).index + 1 →
      ∃ u : State, exec (.stepTimerExpiry e) s = .next (s.finish d u)
        ∧ (u.dist d).state = .proving ∧ (u.dist d).level = 16 ∧ (u.dist d).mark = (s.dist d).mark
        ∧ (u.dist d).provingTimer = some (field s.control.provingWindow 0 8 * 10000)
        ∧ (u.dist d).attempts = (if (s.dist d).mark then
            min ((s.dist d).attempts + 1) s.control.limit else (s.dist d).attempts)
        ∧ (u.engine e).district = .none ∧ (u.engine e).index = 0 ∧ (u.engine e).timer = .none
        ∧ (u.feed (s.engine e).feed).engaged = (s.feed (s.engine e).feed).engaged - 1
        ∧ (u.feed (s.engine e).feed).stress = (s.feed (s.engine e).feed).stress
        ∧ u.slots = s.slots ∧ (∀ f : DistrictId, f ≠ d → u.dist f = s.dist f))
    ∧ ((∀ r : Byte, (s.engine e).reading = some r → (s.engine e).ceiling < r.toNat) →
      (s.engine e).stalls = 4 → (s.dist d).incidentSlot = .none →
      (∀ m : SlotId, (s.slot m).state ≠ .gathering) →
      ∀ n : SlotId, (s.slot n).state = .free → (∀ m : SlotId, m < n → (s.slot m).state ≠ .free) →
      ∃ u : State, exec (.stepTimerExpiry e) s = .next (s.finish d u)
        ∧ (u.dist d).state = .tripped ∧ (u.dist d).level = 0 ∧ (u.dist d).mark = false
        ∧ (u.dist d).flags = { (s.dist d).flags with rampStalled := true, tripped := true }
        ∧ (u.dist d).lastCause = some .stall ∧ (u.dist d).incidentSlot = some n
        ∧ (u.dist d).lastIncident = some s.nextId ∧ u.nextId = s.nextId + 1
        ∧ (u.dist d).attempts = (if (s.dist d).mark then
            min ((s.dist d).attempts + 1) s.control.limit else (s.dist d).attempts)
        ∧ (u.slot n).state = .gathering ∧ (u.slot n).id = s.nextId ∧ (u.slot n).anchor = s.timeBase
        ∧ (u.slot n).openTime = s.timeBase
        ∧ (u.slot n).members = [{ district := d, cause := .stall, stamp := s.timeBase, saturated := false,
                                  wasProving := false, withdrawn := false, role := .none }]
        ∧ (u.engine e).district = .none ∧ (u.engine e).timer = .none
        ∧ (u.feed (s.engine e).feed).engaged = (s.feed (s.engine e).feed).engaged - 1)

/-- POLL sends each mapped district's own command where its node is PRESENT, its channel unheld and its check
passes; else HOLD_OFF. For every state with RESET not held and no exchange: POLL answers next t whose
exchange is with the next address, carries the time base as sampled, and whose command for channel c, where
not HOLD_OFF, finds the node PRESENT and channel c neither CUT nor new-cut in s; HOLD_OFF and FULL carry
duty 0. With all contexts passing, a command other than HOLD_OFF is for a district mapped there, valid and
in RAMPING, PROVING, LIVE or REVERSING, at its level and polarity, and a channel with no district mapped is
commanded HOLD_OFF at polarity A. For a valid district d alone mapped to channel c, every other context
passing: where d passes, the node is PRESENT, the channel neither CUT nor new-cut and d energised, the
command is FULL at level 16 and STEP at the level's duty for 1 to 15, at d's polarity; where d passes but
any of these fails it is HOLD_OFF at d's polarity; where d's check fails it is HOLD_OFF, the check error is
taken, CHECK_ERROR latched and d in CHECK_HOLD (LOCKED stays), the polarity sent being the model's choice
(log 17). Nodes, control words, lines and memory stand. With all contexts passing, nothing else changes but
the polled marks and, for address 1, the round-begun flag that each GATHERING slot sets. The frame's eight
bytes are those of R175, closed by the CRC-8: from 0xFF, each byte added and shifted eight times by x^8 +
x^2 + x + 1. That a REVERSING district's channel last shown CUT is sent HOLD_OFF, where the last row of R59
repeats the flip command, follows R110 and R111 (log 34). -/
def Obligations.PollCommandsFollowDistrictStates : Prop :=
  ∀ s : State, s.inReset = false → s.exchange = .none →
    ∃ (t : State) (x : Exchange), exec .poll s = .next t ∧ t.exchange = some x ∧ x.node = s.nextNode
      ∧ x.timeBase = s.timeBase ∧ t.nodes = s.nodes ∧ t.control = s.control ∧ t.lines = s.lines
      ∧ t.mem = s.mem
      ∧ (∀ c : ChannelId, x.commands[c].mode ≠ .step → x.commands[c].duty = 0)
      ∧ (∀ c : ChannelId, x.commands[c].mode ≠ .holdOff →
          (s.node s.nextNode).state = .present ∧ (s.channel s.nextNode c).output ≠ .cut
          ∧ (s.channel s.nextNode c).newCut = false)
      ∧ ((∀ d : DistrictId, s.passes d) → ∀ c : ChannelId,
          (x.commands[c].mode ≠ .holdOff → ∃ d : DistrictId, (s.dist d).invalid = false
            ∧ (s.dist d).node = some s.nextNode ∧ (s.dist d).channel = c
            ∧ ((s.dist d).state = .ramping ∨ (s.dist d).state = .proving ∨ (s.dist d).state = .live
              ∨ (s.dist d).state = .reversing)
            ∧ x.commands[c].polarity = (s.dist d).polarity
            ∧ (x.commands[c].mode = .full → (s.dist d).level = 16)
            ∧ (x.commands[c].mode = .step → x.commands[c].duty = (s.dist d).level))
          ∧ ((∀ d : DistrictId, ¬((s.dist d).invalid = false ∧ (s.dist d).node = some s.nextNode
              ∧ (s.dist d).channel = c)) →
            x.commands[c] = { mode := .holdOff, duty := 0, polarity := .a }))
      ∧ (∀ (d : DistrictId) (c : ChannelId), (s.dist d).invalid = false →
          (s.dist d).node = some s.nextNode → (s.dist d).channel = c →
          (∀ e : DistrictId, e ≠ d → ¬((s.dist e).invalid = false ∧ (s.dist e).node = some s.nextNode
            ∧ (s.dist e).channel = c)) →
          (∀ e : DistrictId, e ≠ d → s.passes e) →
          (s.passes d → (s.node s.nextNode).state = .present → (s.channel s.nextNode c).output ≠ .cut →
            (s.channel s.nextNode c).newCut = false →
            ((s.dist d).state = .ramping ∨ (s.dist d).state = .proving ∨ (s.dist d).state = .live
              ∨ (s.dist d).state = .reversing) →
            ((s.dist d).level = 16 →
              x.commands[c] = { mode := .full, duty := 0, polarity := (s.dist d).polarity })
            ∧ (1 ≤ (s.dist d).level → (s.dist d).level ≤ 15 →
              x.commands[c] =
                { mode := .step, duty := (s.dist d).level, polarity := (s.dist d).polarity }))
          ∧ (s.passes d →
            ((s.node s.nextNode).state ≠ .present ∨ (s.channel s.nextNode c).output = .cut
              ∨ (s.channel s.nextNode c).newCut = true
              ∨ (s.dist d).state ≠ .ramping ∧ (s.dist d).state ≠ .proving ∧ (s.dist d).state ≠ .live
                ∧ (s.dist d).state ≠ .reversing) →
            x.commands[c] = { mode := .holdOff, duty := 0, polarity := (s.dist d).polarity })
          ∧ (¬s.passes d →
            x.commands[c] = { mode := .holdOff, duty := 0, polarity := (s.dist d).polarity }
            ∧ (t.dist d).invalid = true ∧ (t.dist d).flags.checkError = true
            ∧ (s.queue.Nodup → (t.dist d).state =
                (if (s.dist d).state = .locked then .locked else .checkHold))))
      ∧ ((∀ d : DistrictId, s.passes d) →
          t = { s with exchange := t.exchange, slots := t.slots, districts := t.districts }
          ∧ (∀ d : DistrictId, t.dist d = { s.dist d with polled := (t.dist d).polled })
          ∧ ∀ n : SlotId, t.slot n = if s.nextNode = 0 ∧ (s.slot n).state = .gathering then
              { s.slot n with roundBegun := true } else s.slot n)
      ∧ (∃ (p q r : Byte) (m : ChannelId → Byte), x.frame = [p, q, r, m 0, m 1, m 2, m 3,
            crc8 [p, q, r, m 0, m 1, m 2, m 3]]
          ∧ p.toNat = x.node.val + 1 + 16 * (x.timeBase.toNat / 2 ^ 20)
          ∧ q.toNat = x.timeBase.toNat / 2 ^ 12 % 256 ∧ r.toNat = x.timeBase.toNat / 2 ^ 4 % 256
          ∧ ∀ c : ChannelId, (m c).toNat = (match x.commands[c].mode with
              | .holdOff => 0
              | .step => 1
              | .full => 2) + 4 * (x.commands[c].duty % 16)
            + (if x.commands[c].polarity = .b then 64 else 0)
            + (if x.timeBase.getLsbD c.val then 128 else 0))
      ∧ crc8 [] = 0xFF
      ∧ ∀ (before : List Byte) (a : Byte), crc8 (before ++ [a]) =
          (fun z : Byte => if z.getLsbD 7 then (z <<< 1) ^^^ 0x07 else z <<< 1)^[8] (crc8 before ^^^ a)

/-- A good REPORT enters the node table and gives its districts their readings, or their return; a bad one is a
miss. For every state with RESET not held and an exchange x in progress, and every REPORT: REPORT answers
next t with no exchange and the next address to poll. Good (valid stop bits, CRC, address) with RESTARTED
clear: node PRESENT, misses 0, restarted clear, each channel's output and new-cut as reported. Good with
RESTARTED set: restarted set, misses 3, channels kept, PRESENT becomes LOST, ABSENT and LOST stay. Not good:
the same next state as MISS_TIMEOUT. Other nodes, control words, lines and memory stand. Its bytes are read
as R175 lays them out. With d alone mapped to a PRESENT node and passing its check, no new-cut and address
below 8, d takes the current, and a RAMPING district polled with its own command gives its engine the fresh
reading; a polled REVERSING district shown ON at its polarity goes to PROVING, level 16, mark kept, proving
timer started, at the end of a claim; otherwise nothing more changes. When the node comes back with d
UNREACHABLE there: intent OFF takes d to OFF, where the queue holds the QUEUED districts alone (R64); ON or
ON_MANUAL to QUEUED by a normal entry with the mark off. The scan waits for the end of the REPORT, so that a
new cut in it trips nothing (log 6). -/
def Obligations.GoodReportEntersNodeTable : Prop :=
  (∀ (s : State) (r : Report) (x : Exchange), s.inReset = false → s.exchange = some x →
    ∃ t : State, exec (.report r) s = .next t ∧ t.exchange = .none ∧ t.nextNode = x.node + 1
      ∧ (∀ k : NodeId, k ≠ x.node → t.node k = s.node k) ∧ t.control = s.control ∧ t.lines = s.lines
      ∧ t.mem = s.mem
      ∧ (goodReport r x.node = true → reportRestarted r = false →
          (t.node x.node).state = .present ∧ (t.node x.node).misses = 0
          ∧ (t.node x.node).restarted = false
          ∧ ∀ c : ChannelId, t.channel x.node c =
              { output := (reportChannel r c).output, newCut := (reportChannel r c).newCut })
      ∧ (goodReport r x.node = true → reportRestarted r = true →
          (t.node x.node).restarted = true ∧ (t.node x.node).misses = 3
          ∧ (t.node x.node).channels = (s.node x.node).channels
          ∧ (t.node x.node).state = (if (s.node x.node).state = .absent then .absent else .lost))
      ∧ (goodReport r x.node = false → exec .missTimeout s = .next t))
  ∧ (∀ (r : Report) (k : NodeId) (b : Nat → Byte), (∀ i : Nat, b i = r.bytes.toList.getD i 0) →
      (goodReport r k = true ↔ r.stopBitsValid = true ∧ b 22 = crc8 (r.bytes.toList.take 22)
        ∧ (b 0).toNat = k.val + 1)
      ∧ reportRestarted r = (b 1).getLsbD 0
      ∧ ∀ (c : ChannelId) (z : Byte), z = b (2 + 5 * c.val) →
        (reportChannel r c).output = (match z.toNat % 4 with
          | 0 => .off
          | 1 => .on
          | _ => .cut)
        ∧ (reportChannel r c).cause = (match z.toNat / 4 % 8 with
          | 2 => .overload
          | 3 => .nodeHeat
          | 4 => .undervoltage
          | _ => .overcurrent)
        ∧ (reportChannel r c).newCut = z.getLsbD 5
        ∧ (reportChannel r c).polarity = (if z.getLsbD 6 then .b else .a)
        ∧ (reportChannel r c).current = b (4 + 5 * c.val)
        ∧ (reportChannel r c).age = (b (5 + 5 * c.val)).toNat + 256 * (b (6 + 5 * c.val)).toNat)
  ∧ (∀ (s : State) (r : Report) (x : Exchange) (d : DistrictId) (c : ChannelId) (y : ChannelReport),
      GoodAnswer s x r → (s.node x.node).state = .present → AloneAt s x.node c d → s.passes d →
      y = reportChannel r c → y.newCut = false →
      ∃ u : State, ReadingTaken s x d y u
        ∧ ((s.dist d).state = .reversing → (s.dist d).polled = true → y.output = .on →
            y.polarity = (s.dist d).polarity →
            exec (.report r) s = .next (u.finish d (u.modDist d (fun z =>
              { z with
                state := .proving
                level := 16
                role := if z.incidentSlot = .none then .none else z.role
                holdoffTimer := .none
                provingTimer := some (field s.control.provingWindow 0 8 * 10000)
                quietTimer := .none }))))
        ∧ ((s.dist d).state ≠ .reversing ∨ (s.dist d).polled = false ∨ y.output ≠ .on
              ∨ y.polarity ≠ (s.dist d).polarity → exec (.report r) s = .next u))
  ∧ ∀ (s : State) (r : Report) (x : Exchange) (d : DistrictId) (c : ChannelId) (y : ChannelReport),
      GoodAnswer s x r → (s.node x.node).state ≠ .present → AloneAt s x.node c d → s.passes d →
      (s.dist d).state = .unreachable → y = reportChannel r c →
      ∃ t : State, exec (.report r) s = .next t ∧ (t.dist d).current = y.current
        ∧ (t.dist d).flags = (s.dist d).flags ∧ (t.dist d).words = (s.dist d).words
        ∧ (QueueAgrees s → (s.dist d).intent = .off → (t.dist d).state = .off ∧ (t.dist d).level = 0)
        ∧ ((s.dist d).intent ≠ .off → (t.dist d).state = .queued ∨ (t.dist d).state = .ramping
            ∨ (t.dist d).state = .proving)
        ∧ ((s.dist d).incidentSlot = .none → ∃ u : State, ReadingTaken s x d y u
          ∧ ((s.dist d).intent = .off → t = u.modDist d (fun z =>
              { z with
                state := .off
                level := 0
                mark := false
                holdoffTimer := .none
                provingTimer := .none
                quietTimer := .none }))
          ∧ ((s.dist d).intent ≠ .off → ∃ before after : List DistrictId, NormalPlace s d before after
            ∧ t = ({ u.modDist d (fun z =>
                { z with
                  state := .queued
                  level := 0
                  mark := false
                  holdoffTimer := .none
                  provingTimer := .none
                  quietTimer := .none }) with queue := before ++ d :: after } : State).scan))

/-- A new cut in a REPORT is taken by its district's state: new trip (join, open, solitary), further cut,
re-trip, or nothing. For every state, a PRESENT node below address 8 with d alone mapped to it, at channel
c, passing its check, and a good REPORT, RESTARTED clear, whose new-cut flag is set there: d takes the
current and its engine a fresh reading in u, and the REPORT answers next of u, or of the end of a claim at d
from u on t. In no incident: not energised, u. Energised: the ramp is left (engine IDLE, engaged count 1
lower, attempt counted if marked), TRIPPED latched, cause recorded; d joins the qualifying slot with the
earliest anchor, or opens the lowest FREE slot at the cut's stamp, TRIPPED with a new member entry; with
neither it is solitary: missed count and solitary-loss raised, no incident, STOPPED if ON_MANUAL, LOCKOUT at
the limit, a flip to REVERSING (or to QUEUED under HOLD or with the feed not UP) for a fault of a reversing
district, else HOLDOFF as SUSPECT or FOLLOWER. A member of a GATHERING slot in TRIPPED takes a further cut,
and one RAMPING, PROVING or LIVE returns to TRIPPED with it: a cause of higher priority replaces the entry's
cause, stamp and saturated flag; in any other state, u. An energised member of a RECOVERING slot re-trips:
SUSPECT, last in the suspect order, its entry's cut data kept, STOPPED, LOCKOUT with the lockout set, or
HOLDOFF; not energised, u. Priorities run OVERCURRENT, OVERLOAD, STALL, NODE_HEAT, UNDERVOLTAGE. A solitary
flip returned to QUEUED drops its role (log 18). -/
def Obligations.ReportedCutOpensSlot : Prop :=
  ∀ (s : State) (r : Report) (x : Exchange) (d : DistrictId) (c : ChannelId) (y : ChannelReport) (a : Stamp),
    GoodAnswer s x r → (s.node x.node).state = .present → AloneAt s x.node c d → s.passes d →
    y = reportChannel r c → y.newCut = true → a = x.timeBase - BitVec.ofNat 24 y.age →
    [Cause.overcurrent, .overload, .stall, .nodeHeat, .undervoltage].Pairwise
        (fun p q => q.priority < p.priority)
    ∧ ∃ u : State, ReadingTaken s x d y u
      ∧ ((s.dist d).incidentSlot = .none → ¬Energised s d → exec (.report r) s = .next u)
      ∧ ((s.dist d).incidentSlot = .none → Energised s d →
        ∃ (t : State) (m : Member), exec (.report r) s = .next (u.finish d t) ∧ LeavesRamp u t d
          ∧ m = { district := d, cause := y.cause, stamp := a, saturated := decide (y.age = 65535)
                  wasProving := decide ((s.dist d).state = .proving), withdrawn := false, role := .none }
          ∧ (t.dist d).flags.tripped = true ∧ (t.dist d).lastCause = some y.cause
          ∧ (t.dist d).current = y.current ∧ (∀ e : DistrictId, e ≠ d → t.dist e = s.dist e)
          ∧ ((∃ n : SlotId, Qualifies s d a n) ∨ (∃ n : SlotId, (s.slot n).state = .free) →
            (t.dist d).state = .tripped ∧ (t.dist d).level = 0 ∧ (t.dist d).mark = false
            ∧ (t.dist d).role = .none ∧ (t.dist d).flags = { (s.dist d).flags with tripped := true }
            ∧ (t.dist d).words = (s.dist d).words ∧ (t.dist d).polarity = (s.dist d).polarity
            ∧ t.queue = s.queue ∧ t.ring = s.ring)
          ∧ (∀ n : SlotId, Joins s d a n → (t.dist d).incidentSlot = some n
            ∧ (t.dist d).lastIncident = some (s.slot n).id ∧ t.nextId = s.nextId
            ∧ t.slot n = { s.slot n with
                members := (s.slot n).members ++ [m]
                anySaturated := (s.slot n).anySaturated || m.saturated }
            ∧ ∀ k : SlotId, k ≠ n → t.slot k = s.slot k)
          ∧ (∀ n : SlotId, (∀ k : SlotId, ¬Qualifies s d a k) → (s.slot n).state = .free →
            (∀ k : SlotId, k < n → (s.slot k).state ≠ .free) → (t.dist d).incidentSlot = some n
            ∧ (t.dist d).lastIncident = some s.nextId ∧ t.nextId = s.nextId + 1
            ∧ (t.slot n).state = .gathering ∧ (t.slot n).id = s.nextId ∧ (t.slot n).anchor = a
            ∧ (t.slot n).openTime = s.timeBase ∧ (t.slot n).elapsed = 0 ∧ (t.slot n).members = [m]
            ∧ (t.slot n).suspects = [] ∧ (t.slot n).restored = 0 ∧ (t.slot n).lockouts = 0
            ∧ (t.slot n).anySaturated = m.saturated ∧ (t.slot n).roundBegun = false
            ∧ (t.slot n).roundSeen = false
            ∧ (t.slot n).timer = some (field s.control.gatheringWindow 0 5 * 1000)
            ∧ ∀ k : SlotId, k ≠ n → t.slot k = s.slot k)
          ∧ ((∀ k : SlotId, ¬Qualifies s d a k) → (∀ k : SlotId, (s.slot k).state ≠ .free) →
            t.slots = s.slots ∧ t.nextId = s.nextId ∧ (t.dist d).incidentSlot = .none
            ∧ (t.dist d).lastIncident = .none
            ∧ t.ring = { s.ring with missed := min (s.ring.missed + 1) 255, solitaryLoss := true }
            ∧ ((s.dist d).intent = .onManual → (t.dist d).state = .stopped ∧ (t.dist d).role = .none)
            ∧ ((s.dist d).intent ≠ .onManual → (t.dist d).attempts = s.control.limit →
              LockedOut t d ∧ (t.dist d).role = .none)
            ∧ ((s.dist d).intent ≠ .onManual → (t.dist d).attempts ≠ s.control.limit →
              (y.cause ≠ .undervoltage → (s.dist d).reversing = true →
                (t.dist d).flags.flipped = true ∧ (t.dist d).polarity ≠ (s.dist d).polarity
                ∧ (t.dist d).mark = true
                ∧ (s.hold = false ∧ (s.feed (s.dist d).feed).state = .up →
                  (t.dist d).state = .reversing ∧ (t.dist d).level = 16 ∧ (t.dist d).role = .flip
                  ∧ t.queue = s.queue)
                ∧ (s.hold = true ∨ (s.feed (s.dist d).feed).state ≠ .up →
                  (t.dist d).state = .queued ∧ (t.dist d).level = 0 ∧ (t.dist d).role = .none
                  ∧ ∃ before after : List DistrictId, ReturnPlace s d before after
                    ∧ t.queue = before ++ d :: after))
              ∧ (y.cause = .undervoltage ∨ (s.dist d).reversing = false →
                (t.dist d).state = .holdoff ∧ (t.dist d).level = 0 ∧ (t.dist d).mark = false
                ∧ (t.dist d).role = (if y.cause = .undervoltage then .follower else .suspect)
                ∧ (t.dist d).holdoffTimer = some
                    (min (field s.control.holdoffBase 0 8 * 2 ^ (t.dist d).attempts) 255 * 100000)
                ∧ t.queue = s.queue))))
      ∧ (∀ n : SlotId, (s.dist d).incidentSlot = some n → (s.slot n).state = .gathering →
        ((s.dist d).state ≠ .tripped → (s.dist d).state ≠ .ramping → (s.dist d).state ≠ .proving →
          (s.dist d).state ≠ .live → exec (.report r) s = .next u)
        ∧ ((s.dist d).state = .tripped ∨ (s.dist d).state = .ramping ∨ (s.dist d).state = .proving
            ∨ (s.dist d).state = .live →
          ∃ t : State, exec (.report r) s = .next (u.finish d t) ∧ (t.dist d).state = .tripped
            ∧ (t.dist d).flags = { (s.dist d).flags with tripped := true }
            ∧ (t.dist d).incidentSlot = some n ∧ t.queue = s.queue
            ∧ (∀ e : DistrictId, e ≠ d → t.dist e = s.dist e)
            ∧ ((s.dist d).state = .tripped → t.engines = s.engines ∧ t.feeds = s.feeds)
            ∧ ((s.dist d).state ≠ .tripped → LeavesRamp u t d ∧ (t.dist d).level = 0
              ∧ (t.dist d).mark = false)
            ∧ ((∀ m ∈ (s.slot n).members, m.district = d → y.cause.priority ≤ m.cause.priority) →
              (t.dist d).lastCause = (s.dist d).lastCause ∧ t.slots = s.slots)
            ∧ ((∃ m ∈ (s.slot n).members, m.district = d ∧ m.cause.priority < y.cause.priority) →
              (t.dist d).lastCause = some y.cause ∧ (∀ k : SlotId, k ≠ n → t.slot k = s.slot k)
              ∧ ∃ l : List Member, l = (s.slot n).members.map (fun m => if m.district = d then
                  { m with cause := y.cause, stamp := a, saturated := decide (y.age = 65535) } else m)
                ∧ t.slot n = { s.slot n with members := l, anySaturated := l.any Member.saturated })))
      ∧ (∀ n : SlotId, (s.dist d).incidentSlot = some n → (s.slot n).state = .recovering →
        (¬Energised s d → exec (.report r) s = .next u)
        ∧ (Energised s d → ∃ t : State, exec (.report r) s = .next (u.finish d t) ∧ LeavesRamp u t d
          ∧ (t.dist d).flags.tripped = true ∧ (t.dist d).lastCause = some y.cause
          ∧ (t.dist d).role = .suspect ∧ (t.dist d).incidentSlot = some n ∧ t.queue = s.queue
          ∧ (t.dist d).level = 0 ∧ (t.dist d).mark = false
          ∧ (∀ e : DistrictId, e ≠ d → t.dist e = s.dist e) ∧ (∀ k : SlotId, k ≠ n → t.slot k = s.slot k)
          ∧ t.slot n = { s.slot n with
              members := (s.slot n).members.map (fun m =>
                if m.district = d then { m with role := .suspect } else m)
              suspects := (s.slot n).suspects.erase d ++ [d]
              lockouts := (t.slot n).lockouts }
          ∧ ((s.dist d).intent = .onManual → (t.dist d).state = .stopped)
          ∧ ((s.dist d).intent ≠ .onManual → (t.dist d).attempts = s.control.limit →
            LockedOut t d ∧ (t.slot n).lockouts = (s.slot n).lockouts ||| BitVec.twoPow 32 d.val)
          ∧ ((s.dist d).intent ≠ .onManual → (t.dist d).attempts ≠ s.control.limit →
            (t.dist d).state = .holdoff ∧ (t.slot n).lockouts = (s.slot n).lockouts
            ∧ (t.dist d).holdoffTimer = some
                (min (field s.control.holdoffBase 0 8 * 2 ^ (t.dist d).attempts) 255 * 100000))))

/-- A miss raises the miss count and the third in a row makes a PRESENT node LOST; the exchange with address 8
ends the round. For every state with RESET not held, an exchange x in progress, and MISS_TIMEOUT or
MISS_GAP: the command answers next t with no exchange and the next address: ABSENT stays with the count 1
higher up to 3; PRESENT with count 0 or 1 stays with the count 1 higher; PRESENT with count 2 becomes LOST
with count 3; LOST stays with count 3. Restarted flag, channel entries and other nodes stand. If the node
goes LOST below address 8 with one district d mapped, passing its check and not UNREACHABLE, LOCKED or
CHECK_HOLD, t is the end of a claim at d that takes d to UNREACHABLE with level 0 and mark off. The exchange
with address 8 ends its round, by a miss or a REPORT of any kind: with no district mapped there, each
GATHERING slot whose round-begun flag is set sets round-seen; where no slot then has round-seen set and its
timer expired, nothing else changes but node 8's entry; where one has, it closes exactly as by the expiry of
its timer; where several have, none of them is left GATHERING (the order is free, log 5). -/
def Obligations.MissCountsTowardsNodeLoss : Prop :=
  (∀ (s : State) (x : Exchange) (c : Instr), s.inReset = false → s.exchange = some x →
    c = .missTimeout ∨ c = .missGap →
    ∃ t : State, exec c s = .next t ∧ t.exchange = .none ∧ t.nextNode = x.node + 1
      ∧ (∀ k : NodeId, k ≠ x.node → t.node k = s.node k) ∧ t.control = s.control ∧ t.mem = s.mem
      ∧ (t.node x.node).restarted = (s.node x.node).restarted
      ∧ (t.node x.node).channels = (s.node x.node).channels
      ∧ ((s.node x.node).state = .absent → (t.node x.node).state = .absent
          ∧ (t.node x.node).misses = min ((s.node x.node).misses + 1) 3)
      ∧ ((s.node x.node).state = .present → (s.node x.node).misses < 2 →
          (t.node x.node).state = .present ∧ (t.node x.node).misses = (s.node x.node).misses + 1)
      ∧ ((s.node x.node).state = .present → 2 ≤ (s.node x.node).misses →
          (t.node x.node).state = .lost ∧ (t.node x.node).misses = 3
          ∧ ∀ d : DistrictId, x.node ≠ 7 → s.mappedToNode x.node = [d] → s.passes d →
            (s.dist d).state ≠ .unreachable → (s.dist d).state ≠ .locked → (s.dist d).state ≠ .checkHold →
            ∃ u w : State, t = u.finish d w ∧ u.districts = s.districts ∧ (w.dist d).state = .unreachable
              ∧ (w.dist d).level = 0 ∧ (w.dist d).mark = false ∧ (w.dist d).words = (s.dist d).words
              ∧ (w.dist d).attempts = (s.dist d).attempts ∧ w.queue = s.queue.erase d
              ∧ ∀ e : DistrictId, e ≠ d → w.dist e = s.dist e)
      ∧ ((s.node x.node).state = .lost →
          (t.node x.node).state = .lost ∧ (t.node x.node).misses = 3))
  ∧ ∀ (s : State) (x : Exchange) (c : Instr), s.inReset = false → s.exchange = some x → x.node = 7 →
    (c = .missTimeout ∨ c = .missGap ∨ ∃ r : Report, c = .report r) →
    (∀ d : DistrictId, ¬((s.dist d).invalid = false ∧ (s.dist d).node = some 7)) →
    ∃ v : State, v = { s with exchange := .none, nextNode := 0, nodes := v.nodes, slots := v.slots }
      ∧ (∀ k : NodeId, k ≠ 7 → v.node k = s.node k)
      ∧ (∀ n : SlotId, v.slot n =
          if (s.slot n).state = .gathering ∧ (s.slot n).roundBegun = true then
            { s.slot n with roundSeen := true } else s.slot n)
      ∧ ((∀ n : SlotId, ¬((v.slot n).state = .gathering ∧ (v.slot n).roundSeen = true
            ∧ (v.slot n).timer = .none)) → exec c s = .next v)
      ∧ (∀ n : SlotId, (∀ m : SlotId, ((v.slot m).state = .gathering ∧ (v.slot m).roundSeen = true
            ∧ (v.slot m).timer = .none) ↔ m = n) →
          exec c s = exec (.gatheringTimerExpiry n) (v.modSlot n (fun y => { y with timer := some 0 })))
      ∧ ∃ t : State, exec c s = .next t
        ∧ ∀ n : SlotId, (v.slot n).state = .gathering → (v.slot n).roundSeen = true →
          (v.slot n).timer = .none → (t.slot n).state ≠ .gathering

/-- FAULT is asserted exactly while one of five conditions holds whose mask flag is clear. For every state with
RESET not held, FAULT is asserted exactly if some district is in LOCKOUT and mask bit 0 is clear, or some
context is invalid and bit 1 is clear, or some feed is DOWN and bit 2 is clear, or some node is LOST and bit
3 is clear, or the pending queue is not empty with the ring full and bit 4 is clear. -/
def Obligations.FaultFollowsFiveConditionsAndMask : Prop :=
  ∀ s : State, s.inReset = false → (s.faultAsserted = true ↔
    ((∃ d : DistrictId, (s.dist d).state = .lockout) ∧ s.control.faultMask.getLsbD 0 = false)
    ∨ ((∃ d : DistrictId, (s.dist d).invalid = true) ∧ s.control.faultMask.getLsbD 1 = false)
    ∨ ((∃ k : FeedId, (s.feed k).state = .down) ∧ s.control.faultMask.getLsbD 2 = false)
    ∨ ((∃ k : NodeId, (s.node k).state = .lost) ∧ s.control.faultMask.getLsbD 3 = false)
    ∨ (s.ring.records ≠ [] ∧ (s.ring.producer + 1) % s.control.capacity = s.control.consumer
        ∧ s.control.faultMask.getLsbD 4 = false))

/-- Every step keeps the static RAM in its canonical form. For every state whose memory list has strictly rising
addresses and no entry equal to what an unlisted byte reads as, if step answers next t, then t's memory has
that form too. The list, its canonical form and what an unlisted byte reads as are the model's choice (log
9); R123 gives the span of the memory face alone. -/
def Obligations.StepKeepsMemoryCanonical : Prop :=
  ∀ s t : State, MemoryCanonical s → step s = .next t → MemoryCanonical t

/-- Every step keeps feeds DOWN exactly while lines are low, stress at most 63, counts within the limit. For
every state: if each feed is DOWN exactly when its line is low, so it is after a step; if each stress
account is at most 63, so it is after a step; if each attempt count is at most the limit in force, so it is
after a step. -/
def Obligations.StepKeepsFeedsAndCountsInRange : Prop :=
  ∀ s t : State, step s = .next t →
    (LinesAgree s → LinesAgree t) ∧ (StressBounded s → StressBounded t)
    ∧ (AttemptsWithinLimit s → AttemptsWithinLimit t)

/-- Every step keeps the queue holding the QUEUED districts and each RAMPING district on exactly one engine. For
every state in which the restart queue holds each QUEUED district once and no other, each BUSY engine's
district is RAMPING, and each RAMPING district is held by exactly one engine: if step answers next t, the
same holds of t. -/
def Obligations.StepKeepsQueueAndEnginesAgreeing : Prop :=
  ∀ s t : State, RestartAgrees s → step s = .next t → RestartAgrees t

/-- Under lock freeze no step but a full reset clears the flag or removes a district from the lock set. For
every state with the lock freeze flag set and no FULL_RESET at the front of the queue: if step answers next
t, the flag is set in t and every member of the lock set is still a member. -/
def Obligations.StepUnderFreezeKeepsLockedSet : Prop :=
  ∀ s t : State, s.freeze = true → (∀ (p : Pins) (rest : List Instr), s.pending ≠ .fullReset p :: rest) →
    step s = .next t →
    t.freeze = true
    ∧ ∀ d : DistrictId, s.control.lockSet.getLsbD d.val = true → t.control.lockSet.getLsbD d.val = true

/-- Every step keeps the correction set free of repeats and in the order of the offsets. For every state whose
marked positions stand by strictly rising offset, so that none stands twice and the first is the lowest: if
step answers next t, the same holds of t. -/
def Obligations.StepKeepsMarksInOrder : Prop :=
  ∀ s t : State, MarksInOrder s → step s = .next t → MarksInOrder t

/-- Every step keeps WAITING behind an own word, and the face HOST exactly while an access is ON_FACE. For every
state in which a WAITING access stands only while the memory face carries an own word (CORRECTION or RING)
and the face is HOST exactly while an access is ON_FACE: if step answers next t, the same holds of t. WAIT
is therefore never asserted on an idle face. -/
def Obligations.StepKeepsAccessAndFaceAgreeing : Prop :=
  ∀ s t : State, PathAgrees s → step s = .next t → PathAgrees t

/-- Every step keeps a district in LOCKED exactly when it is in the effective lock set. For every state whose
restart queue and engines agree with the district states and in which each district is in LOCKED exactly
when it is in the effective lock set: if step answers next t, each district of t is in LOCKED exactly when
it is in the effective lock set of t. -/
def Obligations.StepKeepsLockedDistrictsInLockSet : Prop :=
  ∀ s t : State, RestartAgrees s → LocksAgree s → step s = .next t → LocksAgree t

/-- The state after reset meets every invariant stated of steps. State.reset has its memory in canonical form,
its feeds in agreement with their lines, stress and attempt counts in range, the queue and engines in
agreement with the district states, the marks by strictly rising offset, the access and the face in
agreement, LOCKED districts exactly those of the lock set, FAULT released and WAIT not asserted. The pins it
samples (every line high, HOLD released, straps 0) are the model's choice (log 11). -/
def Obligations.ResetStateMeetsInvariants : Prop :=
  MemoryCanonical State.reset ∧ LinesAgree State.reset ∧ StressBounded State.reset
  ∧ AttemptsWithinLimit State.reset ∧ RestartAgrees State.reset ∧ MarksInOrder State.reset
  ∧ PathAgrees State.reset ∧ LocksAgree State.reset
  ∧ State.reset.faultAsserted = false ∧ State.reset.waitAsserted = false
end

