-- ==== Sys2Proof/Laws/Tables.lean ====
section
/-! SUPPORT. Reading a table after one entry is replaced, and reading a table given by a function. -/

namespace Sys2Proof

@[simp] theorem get_put_same {α : Type} {n : Nat} (t : Vector α n) (i : Fin n) (x : α) :
    (put t i x)[i] = x := by
  simp [put]

theorem get_put_other {α : Type} {n : Nat} (t : Vector α n) (i j : Fin n) (x : α) (h : j ≠ i) :
    (put t i x)[j] = t[j] := by
  have h' : i.val ≠ j.val := fun e => h (Fin.ext e.symm)
  simp [put, h']

theorem get_put {α : Type} {n : Nat} (t : Vector α n) (i j : Fin n) (x : α) :
    (put t i x)[j] = if j = i then x else t[j] := by
  split
  · next h => cases h; exact get_put_same t _ x
  · next h => exact get_put_other t i j x h

@[simp] theorem get_put_nat {α : Type} {n : Nat} (t : Vector α n) (i : Fin n) (j : Nat) (x : α) (h : j < n) :
    (put t i x)[j] = if j = i.val then x else t[j] := by
  simp only [put, Vector.getElem_set, eq_comm]

@[simp] theorem get_tabulate {α : Type} {n : Nat} (f : Fin n → α) (i : Fin n) :
    (tabulate n f)[i] = f i := by
  simp [tabulate, indices]

@[simp] theorem get_tabulate_nat {α : Type} {n : Nat} (f : Fin n → α) (i : Nat) (h : i < n) :
    (tabulate n f)[i] = f ⟨i, h⟩ := by
  simp [tabulate, indices]

/-- Two tables with the same entries are the same table. -/
theorem table_ext {α : Type} {n : Nat} {t u : Vector α n} (h : ∀ i : Fin n, t[i] = u[i]) : t = u :=
  Vector.ext (fun i hi => h ⟨i, hi⟩)

@[simp] theorem put_self {α : Type} {n : Nat} (t : Vector α n) (i : Fin n) : put t i t[i] = t := by
  apply table_ext
  intro j
  rw [get_put]
  split
  · next h => rw [h]
  · rfl

theorem put_put {α : Type} {n : Nat} (t : Vector α n) (i : Fin n) (x y : α) :
    put (put t i x) i y = put t i y := by
  apply table_ext
  intro j
  simp only [get_put]
  split <;> rfl

end Sys2Proof
end

