-- ==== Sys2Proof/Laws/State.lean ====
section
/-! SUPPORT. What each replacement of a part of the state does to each field, one lemma per field. -/

namespace Sys2Proof.Machine

open Sys2Proof

/-! ### modDist -/

@[simp] theorem State.modDist_control (s : State) (d : DistrictId) (f : District → District) :
    (s.modDist d f).control = s.control := rfl

@[simp] theorem State.modDist_adjacency (s : State) (d : DistrictId) (f : District → District) :
    (s.modDist d f).adjacency = s.adjacency := rfl

@[simp] theorem State.modDist_feeds (s : State) (d : DistrictId) (f : District → District) :
    (s.modDist d f).feeds = s.feeds := rfl

@[simp] theorem State.modDist_lines (s : State) (d : DistrictId) (f : District → District) :
    (s.modDist d f).lines = s.lines := rfl

@[simp] theorem State.modDist_drainTimer (s : State) (d : DistrictId) (f : District → District) :
    (s.modDist d f).drainTimer = s.drainTimer := rfl

@[simp] theorem State.modDist_slots (s : State) (d : DistrictId) (f : District → District) :
    (s.modDist d f).slots = s.slots := rfl

@[simp] theorem State.modDist_nextId (s : State) (d : DistrictId) (f : District → District) :
    (s.modDist d f).nextId = s.nextId := rfl

@[simp] theorem State.modDist_queue (s : State) (d : DistrictId) (f : District → District) :
    (s.modDist d f).queue = s.queue := rfl

@[simp] theorem State.modDist_engines (s : State) (d : DistrictId) (f : District → District) :
    (s.modDist d f).engines = s.engines := rfl

@[simp] theorem State.modDist_timeBase (s : State) (d : DistrictId) (f : District → District) :
    (s.modDist d f).timeBase = s.timeBase := rfl

@[simp] theorem State.modDist_nodes (s : State) (d : DistrictId) (f : District → District) :
    (s.modDist d f).nodes = s.nodes := rfl

@[simp] theorem State.modDist_nextNode (s : State) (d : DistrictId) (f : District → District) :
    (s.modDist d f).nextNode = s.nextNode := rfl

@[simp] theorem State.modDist_exchange (s : State) (d : DistrictId) (f : District → District) :
    (s.modDist d f).exchange = s.exchange := rfl

@[simp] theorem State.modDist_hold (s : State) (d : DistrictId) (f : District → District) :
    (s.modDist d f).hold = s.hold := rfl

@[simp] theorem State.modDist_freeze (s : State) (d : DistrictId) (f : District → District) :
    (s.modDist d f).freeze = s.freeze := rfl

@[simp] theorem State.modDist_corrections (s : State) (d : DistrictId) (f : District → District) :
    (s.modDist d f).corrections = s.corrections := rfl

@[simp] theorem State.modDist_windowBase (s : State) (d : DistrictId) (f : District → District) :
    (s.modDist d f).windowBase = s.windowBase := rfl

@[simp] theorem State.modDist_access (s : State) (d : DistrictId) (f : District → District) :
    (s.modDist d f).access = s.access := rfl

@[simp] theorem State.modDist_face (s : State) (d : DistrictId) (f : District → District) :
    (s.modDist d f).face = s.face := rfl

@[simp] theorem State.modDist_readData (s : State) (d : DistrictId) (f : District → District) :
    (s.modDist d f).readData = s.readData := rfl

@[simp] theorem State.modDist_ring (s : State) (d : DistrictId) (f : District → District) :
    (s.modDist d f).ring = s.ring := rfl

@[simp] theorem State.modDist_lastCommand (s : State) (d : DistrictId) (f : District → District) :
    (s.modDist d f).lastCommand = s.lastCommand := rfl

@[simp] theorem State.modDist_lastResetCause (s : State) (d : DistrictId) (f : District → District) :
    (s.modDist d f).lastResetCause = s.lastResetCause := rfl

@[simp] theorem State.modDist_inReset (s : State) (d : DistrictId) (f : District → District) :
    (s.modDist d f).inReset = s.inReset := rfl

@[simp] theorem State.modDist_mem (s : State) (d : DistrictId) (f : District → District) :
    (s.modDist d f).mem = s.mem := rfl

@[simp] theorem State.modDist_choices (s : State) (d : DistrictId) (f : District → District) :
    (s.modDist d f).choices = s.choices := rfl

@[simp] theorem State.modDist_pending (s : State) (d : DistrictId) (f : District → District) :
    (s.modDist d f).pending = s.pending := rfl

@[simp] theorem State.modDist_slot (s : State) (d : DistrictId) (f : District → District) (m : SlotId) :
    (s.modDist d f).slot m = s.slot m := rfl

@[simp] theorem State.modDist_feed (s : State) (d : DistrictId) (f : District → District) (j : FeedId) :
    (s.modDist d f).feed j = s.feed j := rfl

@[simp] theorem State.modDist_engine (s : State) (d : DistrictId) (f : District → District) (i : EngineId) :
    (s.modDist d f).engine i = s.engine i := rfl

@[simp] theorem State.modDist_node (s : State) (d : DistrictId) (f : District → District) (j : NodeId) :
    (s.modDist d f).node j = s.node j := rfl

@[simp] theorem State.modDist_line_eq (s : State) (d : DistrictId) (f : District → District) (z : FeedId) :
    (s.modDist d f).lines[z] = s.lines[z] := rfl

@[simp] theorem State.dist_modDist_same (s : State) (d : DistrictId) (f : District → District) :
    (s.modDist d f).dist d = f (s.dist d) :=
  get_put_same _ _ _

theorem State.dist_modDist (s : State) (d : DistrictId) (f : District → District) (z : DistrictId) :
    (s.modDist d f).dist z = if z = d then f (s.dist d) else s.dist z := by
  simp only [State.modDist, State.dist, get_put]

theorem State.dist_modDist_other (s : State) (d : DistrictId) (f : District → District) (z : DistrictId) (h : z ≠ d) :
    (s.modDist d f).dist z = s.dist z := by
  rw [State.dist_modDist, if_neg h]

/-! ### modSlot -/

@[simp] theorem State.modSlot_control (s : State) (n : SlotId) (f : Slot → Slot) :
    (s.modSlot n f).control = s.control := rfl

@[simp] theorem State.modSlot_districts (s : State) (n : SlotId) (f : Slot → Slot) :
    (s.modSlot n f).districts = s.districts := rfl

@[simp] theorem State.modSlot_adjacency (s : State) (n : SlotId) (f : Slot → Slot) :
    (s.modSlot n f).adjacency = s.adjacency := rfl

@[simp] theorem State.modSlot_feeds (s : State) (n : SlotId) (f : Slot → Slot) :
    (s.modSlot n f).feeds = s.feeds := rfl

@[simp] theorem State.modSlot_lines (s : State) (n : SlotId) (f : Slot → Slot) :
    (s.modSlot n f).lines = s.lines := rfl

@[simp] theorem State.modSlot_drainTimer (s : State) (n : SlotId) (f : Slot → Slot) :
    (s.modSlot n f).drainTimer = s.drainTimer := rfl

@[simp] theorem State.modSlot_nextId (s : State) (n : SlotId) (f : Slot → Slot) :
    (s.modSlot n f).nextId = s.nextId := rfl

@[simp] theorem State.modSlot_queue (s : State) (n : SlotId) (f : Slot → Slot) :
    (s.modSlot n f).queue = s.queue := rfl

@[simp] theorem State.modSlot_engines (s : State) (n : SlotId) (f : Slot → Slot) :
    (s.modSlot n f).engines = s.engines := rfl

@[simp] theorem State.modSlot_timeBase (s : State) (n : SlotId) (f : Slot → Slot) :
    (s.modSlot n f).timeBase = s.timeBase := rfl

@[simp] theorem State.modSlot_nodes (s : State) (n : SlotId) (f : Slot → Slot) :
    (s.modSlot n f).nodes = s.nodes := rfl

@[simp] theorem State.modSlot_nextNode (s : State) (n : SlotId) (f : Slot → Slot) :
    (s.modSlot n f).nextNode = s.nextNode := rfl

@[simp] theorem State.modSlot_exchange (s : State) (n : SlotId) (f : Slot → Slot) :
    (s.modSlot n f).exchange = s.exchange := rfl

@[simp] theorem State.modSlot_hold (s : State) (n : SlotId) (f : Slot → Slot) :
    (s.modSlot n f).hold = s.hold := rfl

@[simp] theorem State.modSlot_freeze (s : State) (n : SlotId) (f : Slot → Slot) :
    (s.modSlot n f).freeze = s.freeze := rfl

@[simp] theorem State.modSlot_corrections (s : State) (n : SlotId) (f : Slot → Slot) :
    (s.modSlot n f).corrections = s.corrections := rfl

@[simp] theorem State.modSlot_windowBase (s : State) (n : SlotId) (f : Slot → Slot) :
    (s.modSlot n f).windowBase = s.windowBase := rfl

@[simp] theorem State.modSlot_access (s : State) (n : SlotId) (f : Slot → Slot) :
    (s.modSlot n f).access = s.access := rfl

@[simp] theorem State.modSlot_face (s : State) (n : SlotId) (f : Slot → Slot) :
    (s.modSlot n f).face = s.face := rfl

@[simp] theorem State.modSlot_readData (s : State) (n : SlotId) (f : Slot → Slot) :
    (s.modSlot n f).readData = s.readData := rfl

@[simp] theorem State.modSlot_ring (s : State) (n : SlotId) (f : Slot → Slot) :
    (s.modSlot n f).ring = s.ring := rfl

@[simp] theorem State.modSlot_lastCommand (s : State) (n : SlotId) (f : Slot → Slot) :
    (s.modSlot n f).lastCommand = s.lastCommand := rfl

@[simp] theorem State.modSlot_lastResetCause (s : State) (n : SlotId) (f : Slot → Slot) :
    (s.modSlot n f).lastResetCause = s.lastResetCause := rfl

@[simp] theorem State.modSlot_inReset (s : State) (n : SlotId) (f : Slot → Slot) :
    (s.modSlot n f).inReset = s.inReset := rfl

@[simp] theorem State.modSlot_mem (s : State) (n : SlotId) (f : Slot → Slot) :
    (s.modSlot n f).mem = s.mem := rfl

@[simp] theorem State.modSlot_choices (s : State) (n : SlotId) (f : Slot → Slot) :
    (s.modSlot n f).choices = s.choices := rfl

@[simp] theorem State.modSlot_pending (s : State) (n : SlotId) (f : Slot → Slot) :
    (s.modSlot n f).pending = s.pending := rfl

@[simp] theorem State.modSlot_dist (s : State) (n : SlotId) (f : Slot → Slot) (e : DistrictId) :
    (s.modSlot n f).dist e = s.dist e := rfl

@[simp] theorem State.modSlot_feed (s : State) (n : SlotId) (f : Slot → Slot) (j : FeedId) :
    (s.modSlot n f).feed j = s.feed j := rfl

@[simp] theorem State.modSlot_engine (s : State) (n : SlotId) (f : Slot → Slot) (i : EngineId) :
    (s.modSlot n f).engine i = s.engine i := rfl

@[simp] theorem State.modSlot_node (s : State) (n : SlotId) (f : Slot → Slot) (j : NodeId) :
    (s.modSlot n f).node j = s.node j := rfl

@[simp] theorem State.modSlot_line_eq (s : State) (n : SlotId) (f : Slot → Slot) (z : FeedId) :
    (s.modSlot n f).lines[z] = s.lines[z] := rfl

@[simp] theorem State.slot_modSlot_same (s : State) (n : SlotId) (f : Slot → Slot) :
    (s.modSlot n f).slot n = f (s.slot n) :=
  get_put_same _ _ _

theorem State.slot_modSlot (s : State) (n : SlotId) (f : Slot → Slot) (z : SlotId) :
    (s.modSlot n f).slot z = if z = n then f (s.slot n) else s.slot z := by
  simp only [State.modSlot, State.slot, get_put]

theorem State.slot_modSlot_other (s : State) (n : SlotId) (f : Slot → Slot) (z : SlotId) (h : z ≠ n) :
    (s.modSlot n f).slot z = s.slot z := by
  rw [State.slot_modSlot, if_neg h]

/-! ### modFeed -/

@[simp] theorem State.modFeed_control (s : State) (k : FeedId) (f : Feed → Feed) :
    (s.modFeed k f).control = s.control := rfl

@[simp] theorem State.modFeed_districts (s : State) (k : FeedId) (f : Feed → Feed) :
    (s.modFeed k f).districts = s.districts := rfl

@[simp] theorem State.modFeed_adjacency (s : State) (k : FeedId) (f : Feed → Feed) :
    (s.modFeed k f).adjacency = s.adjacency := rfl

@[simp] theorem State.modFeed_lines (s : State) (k : FeedId) (f : Feed → Feed) :
    (s.modFeed k f).lines = s.lines := rfl

@[simp] theorem State.modFeed_drainTimer (s : State) (k : FeedId) (f : Feed → Feed) :
    (s.modFeed k f).drainTimer = s.drainTimer := rfl

@[simp] theorem State.modFeed_slots (s : State) (k : FeedId) (f : Feed → Feed) :
    (s.modFeed k f).slots = s.slots := rfl

@[simp] theorem State.modFeed_nextId (s : State) (k : FeedId) (f : Feed → Feed) :
    (s.modFeed k f).nextId = s.nextId := rfl

@[simp] theorem State.modFeed_queue (s : State) (k : FeedId) (f : Feed → Feed) :
    (s.modFeed k f).queue = s.queue := rfl

@[simp] theorem State.modFeed_engines (s : State) (k : FeedId) (f : Feed → Feed) :
    (s.modFeed k f).engines = s.engines := rfl

@[simp] theorem State.modFeed_timeBase (s : State) (k : FeedId) (f : Feed → Feed) :
    (s.modFeed k f).timeBase = s.timeBase := rfl

@[simp] theorem State.modFeed_nodes (s : State) (k : FeedId) (f : Feed → Feed) :
    (s.modFeed k f).nodes = s.nodes := rfl

@[simp] theorem State.modFeed_nextNode (s : State) (k : FeedId) (f : Feed → Feed) :
    (s.modFeed k f).nextNode = s.nextNode := rfl

@[simp] theorem State.modFeed_exchange (s : State) (k : FeedId) (f : Feed → Feed) :
    (s.modFeed k f).exchange = s.exchange := rfl

@[simp] theorem State.modFeed_hold (s : State) (k : FeedId) (f : Feed → Feed) :
    (s.modFeed k f).hold = s.hold := rfl

@[simp] theorem State.modFeed_freeze (s : State) (k : FeedId) (f : Feed → Feed) :
    (s.modFeed k f).freeze = s.freeze := rfl

@[simp] theorem State.modFeed_corrections (s : State) (k : FeedId) (f : Feed → Feed) :
    (s.modFeed k f).corrections = s.corrections := rfl

@[simp] theorem State.modFeed_windowBase (s : State) (k : FeedId) (f : Feed → Feed) :
    (s.modFeed k f).windowBase = s.windowBase := rfl

@[simp] theorem State.modFeed_access (s : State) (k : FeedId) (f : Feed → Feed) :
    (s.modFeed k f).access = s.access := rfl

@[simp] theorem State.modFeed_face (s : State) (k : FeedId) (f : Feed → Feed) :
    (s.modFeed k f).face = s.face := rfl

@[simp] theorem State.modFeed_readData (s : State) (k : FeedId) (f : Feed → Feed) :
    (s.modFeed k f).readData = s.readData := rfl

@[simp] theorem State.modFeed_ring (s : State) (k : FeedId) (f : Feed → Feed) :
    (s.modFeed k f).ring = s.ring := rfl

@[simp] theorem State.modFeed_lastCommand (s : State) (k : FeedId) (f : Feed → Feed) :
    (s.modFeed k f).lastCommand = s.lastCommand := rfl

@[simp] theorem State.modFeed_lastResetCause (s : State) (k : FeedId) (f : Feed → Feed) :
    (s.modFeed k f).lastResetCause = s.lastResetCause := rfl

@[simp] theorem State.modFeed_inReset (s : State) (k : FeedId) (f : Feed → Feed) :
    (s.modFeed k f).inReset = s.inReset := rfl

@[simp] theorem State.modFeed_mem (s : State) (k : FeedId) (f : Feed → Feed) :
    (s.modFeed k f).mem = s.mem := rfl

@[simp] theorem State.modFeed_choices (s : State) (k : FeedId) (f : Feed → Feed) :
    (s.modFeed k f).choices = s.choices := rfl

@[simp] theorem State.modFeed_pending (s : State) (k : FeedId) (f : Feed → Feed) :
    (s.modFeed k f).pending = s.pending := rfl

@[simp] theorem State.modFeed_dist (s : State) (k : FeedId) (f : Feed → Feed) (e : DistrictId) :
    (s.modFeed k f).dist e = s.dist e := rfl

@[simp] theorem State.modFeed_slot (s : State) (k : FeedId) (f : Feed → Feed) (m : SlotId) :
    (s.modFeed k f).slot m = s.slot m := rfl

@[simp] theorem State.modFeed_engine (s : State) (k : FeedId) (f : Feed → Feed) (i : EngineId) :
    (s.modFeed k f).engine i = s.engine i := rfl

@[simp] theorem State.modFeed_node (s : State) (k : FeedId) (f : Feed → Feed) (j : NodeId) :
    (s.modFeed k f).node j = s.node j := rfl

@[simp] theorem State.feed_modFeed_same (s : State) (k : FeedId) (f : Feed → Feed) :
    (s.modFeed k f).feed k = f (s.feed k) :=
  get_put_same _ _ _

theorem State.feed_modFeed (s : State) (k : FeedId) (f : Feed → Feed) (z : FeedId) :
    (s.modFeed k f).feed z = if z = k then f (s.feed k) else s.feed z := by
  simp only [State.modFeed, State.feed, get_put]

theorem State.feed_modFeed_other (s : State) (k : FeedId) (f : Feed → Feed) (z : FeedId) (h : z ≠ k) :
    (s.modFeed k f).feed z = s.feed z := by
  rw [State.feed_modFeed, if_neg h]

/-! ### modEngine -/

@[simp] theorem State.modEngine_control (s : State) (e : EngineId) (f : Engine → Engine) :
    (s.modEngine e f).control = s.control := rfl

@[simp] theorem State.modEngine_districts (s : State) (e : EngineId) (f : Engine → Engine) :
    (s.modEngine e f).districts = s.districts := rfl

@[simp] theorem State.modEngine_adjacency (s : State) (e : EngineId) (f : Engine → Engine) :
    (s.modEngine e f).adjacency = s.adjacency := rfl

@[simp] theorem State.modEngine_feeds (s : State) (e : EngineId) (f : Engine → Engine) :
    (s.modEngine e f).feeds = s.feeds := rfl

@[simp] theorem State.modEngine_lines (s : State) (e : EngineId) (f : Engine → Engine) :
    (s.modEngine e f).lines = s.lines := rfl

@[simp] theorem State.modEngine_drainTimer (s : State) (e : EngineId) (f : Engine → Engine) :
    (s.modEngine e f).drainTimer = s.drainTimer := rfl

@[simp] theorem State.modEngine_slots (s : State) (e : EngineId) (f : Engine → Engine) :
    (s.modEngine e f).slots = s.slots := rfl

@[simp] theorem State.modEngine_nextId (s : State) (e : EngineId) (f : Engine → Engine) :
    (s.modEngine e f).nextId = s.nextId := rfl

@[simp] theorem State.modEngine_queue (s : State) (e : EngineId) (f : Engine → Engine) :
    (s.modEngine e f).queue = s.queue := rfl

@[simp] theorem State.modEngine_timeBase (s : State) (e : EngineId) (f : Engine → Engine) :
    (s.modEngine e f).timeBase = s.timeBase := rfl

@[simp] theorem State.modEngine_nodes (s : State) (e : EngineId) (f : Engine → Engine) :
    (s.modEngine e f).nodes = s.nodes := rfl

@[simp] theorem State.modEngine_nextNode (s : State) (e : EngineId) (f : Engine → Engine) :
    (s.modEngine e f).nextNode = s.nextNode := rfl

@[simp] theorem State.modEngine_exchange (s : State) (e : EngineId) (f : Engine → Engine) :
    (s.modEngine e f).exchange = s.exchange := rfl

@[simp] theorem State.modEngine_hold (s : State) (e : EngineId) (f : Engine → Engine) :
    (s.modEngine e f).hold = s.hold := rfl

@[simp] theorem State.modEngine_freeze (s : State) (e : EngineId) (f : Engine → Engine) :
    (s.modEngine e f).freeze = s.freeze := rfl

@[simp] theorem State.modEngine_corrections (s : State) (e : EngineId) (f : Engine → Engine) :
    (s.modEngine e f).corrections = s.corrections := rfl

@[simp] theorem State.modEngine_windowBase (s : State) (e : EngineId) (f : Engine → Engine) :
    (s.modEngine e f).windowBase = s.windowBase := rfl

@[simp] theorem State.modEngine_access (s : State) (e : EngineId) (f : Engine → Engine) :
    (s.modEngine e f).access = s.access := rfl

@[simp] theorem State.modEngine_face (s : State) (e : EngineId) (f : Engine → Engine) :
    (s.modEngine e f).face = s.face := rfl

@[simp] theorem State.modEngine_readData (s : State) (e : EngineId) (f : Engine → Engine) :
    (s.modEngine e f).readData = s.readData := rfl

@[simp] theorem State.modEngine_ring (s : State) (e : EngineId) (f : Engine → Engine) :
    (s.modEngine e f).ring = s.ring := rfl

@[simp] theorem State.modEngine_lastCommand (s : State) (e : EngineId) (f : Engine → Engine) :
    (s.modEngine e f).lastCommand = s.lastCommand := rfl

@[simp] theorem State.modEngine_lastResetCause (s : State) (e : EngineId) (f : Engine → Engine) :
    (s.modEngine e f).lastResetCause = s.lastResetCause := rfl

@[simp] theorem State.modEngine_inReset (s : State) (e : EngineId) (f : Engine → Engine) :
    (s.modEngine e f).inReset = s.inReset := rfl

@[simp] theorem State.modEngine_mem (s : State) (e : EngineId) (f : Engine → Engine) :
    (s.modEngine e f).mem = s.mem := rfl

@[simp] theorem State.modEngine_choices (s : State) (e : EngineId) (f : Engine → Engine) :
    (s.modEngine e f).choices = s.choices := rfl

@[simp] theorem State.modEngine_pending (s : State) (e : EngineId) (f : Engine → Engine) :
    (s.modEngine e f).pending = s.pending := rfl

@[simp] theorem State.modEngine_dist (s : State) (e : EngineId) (f : Engine → Engine) (x : DistrictId) :
    (s.modEngine e f).dist x = s.dist x := rfl

@[simp] theorem State.modEngine_slot (s : State) (e : EngineId) (f : Engine → Engine) (m : SlotId) :
    (s.modEngine e f).slot m = s.slot m := rfl

@[simp] theorem State.modEngine_feed (s : State) (e : EngineId) (f : Engine → Engine) (j : FeedId) :
    (s.modEngine e f).feed j = s.feed j := rfl

@[simp] theorem State.modEngine_node (s : State) (e : EngineId) (f : Engine → Engine) (j : NodeId) :
    (s.modEngine e f).node j = s.node j := rfl

@[simp] theorem State.modEngine_line_eq (s : State) (e : EngineId) (f : Engine → Engine) (z : FeedId) :
    (s.modEngine e f).lines[z] = s.lines[z] := rfl

@[simp] theorem State.engine_modEngine_same (s : State) (e : EngineId) (f : Engine → Engine) :
    (s.modEngine e f).engine e = f (s.engine e) :=
  get_put_same _ _ _

theorem State.engine_modEngine (s : State) (e : EngineId) (f : Engine → Engine) (z : EngineId) :
    (s.modEngine e f).engine z = if z = e then f (s.engine e) else s.engine z := by
  simp only [State.modEngine, State.engine, get_put]

theorem State.engine_modEngine_other (s : State) (e : EngineId) (f : Engine → Engine) (z : EngineId) (h : z ≠ e) :
    (s.modEngine e f).engine z = s.engine z := by
  rw [State.engine_modEngine, if_neg h]

/-! ### modNode -/

@[simp] theorem State.modNode_control (s : State) (k : NodeId) (f : Node → Node) :
    (s.modNode k f).control = s.control := rfl

@[simp] theorem State.modNode_districts (s : State) (k : NodeId) (f : Node → Node) :
    (s.modNode k f).districts = s.districts := rfl

@[simp] theorem State.modNode_adjacency (s : State) (k : NodeId) (f : Node → Node) :
    (s.modNode k f).adjacency = s.adjacency := rfl

@[simp] theorem State.modNode_feeds (s : State) (k : NodeId) (f : Node → Node) :
    (s.modNode k f).feeds = s.feeds := rfl

@[simp] theorem State.modNode_lines (s : State) (k : NodeId) (f : Node → Node) :
    (s.modNode k f).lines = s.lines := rfl

@[simp] theorem State.modNode_drainTimer (s : State) (k : NodeId) (f : Node → Node) :
    (s.modNode k f).drainTimer = s.drainTimer := rfl

@[simp] theorem State.modNode_slots (s : State) (k : NodeId) (f : Node → Node) :
    (s.modNode k f).slots = s.slots := rfl

@[simp] theorem State.modNode_nextId (s : State) (k : NodeId) (f : Node → Node) :
    (s.modNode k f).nextId = s.nextId := rfl

@[simp] theorem State.modNode_queue (s : State) (k : NodeId) (f : Node → Node) :
    (s.modNode k f).queue = s.queue := rfl

@[simp] theorem State.modNode_engines (s : State) (k : NodeId) (f : Node → Node) :
    (s.modNode k f).engines = s.engines := rfl

@[simp] theorem State.modNode_timeBase (s : State) (k : NodeId) (f : Node → Node) :
    (s.modNode k f).timeBase = s.timeBase := rfl

@[simp] theorem State.modNode_nextNode (s : State) (k : NodeId) (f : Node → Node) :
    (s.modNode k f).nextNode = s.nextNode := rfl

@[simp] theorem State.modNode_exchange (s : State) (k : NodeId) (f : Node → Node) :
    (s.modNode k f).exchange = s.exchange := rfl

@[simp] theorem State.modNode_hold (s : State) (k : NodeId) (f : Node → Node) :
    (s.modNode k f).hold = s.hold := rfl

@[simp] theorem State.modNode_freeze (s : State) (k : NodeId) (f : Node → Node) :
    (s.modNode k f).freeze = s.freeze := rfl

@[simp] theorem State.modNode_corrections (s : State) (k : NodeId) (f : Node → Node) :
    (s.modNode k f).corrections = s.corrections := rfl

@[simp] theorem State.modNode_windowBase (s : State) (k : NodeId) (f : Node → Node) :
    (s.modNode k f).windowBase = s.windowBase := rfl

@[simp] theorem State.modNode_access (s : State) (k : NodeId) (f : Node → Node) :
    (s.modNode k f).access = s.access := rfl

@[simp] theorem State.modNode_face (s : State) (k : NodeId) (f : Node → Node) :
    (s.modNode k f).face = s.face := rfl

@[simp] theorem State.modNode_readData (s : State) (k : NodeId) (f : Node → Node) :
    (s.modNode k f).readData = s.readData := rfl

@[simp] theorem State.modNode_ring (s : State) (k : NodeId) (f : Node → Node) :
    (s.modNode k f).ring = s.ring := rfl

@[simp] theorem State.modNode_lastCommand (s : State) (k : NodeId) (f : Node → Node) :
    (s.modNode k f).lastCommand = s.lastCommand := rfl

@[simp] theorem State.modNode_lastResetCause (s : State) (k : NodeId) (f : Node → Node) :
    (s.modNode k f).lastResetCause = s.lastResetCause := rfl

@[simp] theorem State.modNode_inReset (s : State) (k : NodeId) (f : Node → Node) :
    (s.modNode k f).inReset = s.inReset := rfl

@[simp] theorem State.modNode_mem (s : State) (k : NodeId) (f : Node → Node) :
    (s.modNode k f).mem = s.mem := rfl

@[simp] theorem State.modNode_choices (s : State) (k : NodeId) (f : Node → Node) :
    (s.modNode k f).choices = s.choices := rfl

@[simp] theorem State.modNode_pending (s : State) (k : NodeId) (f : Node → Node) :
    (s.modNode k f).pending = s.pending := rfl

@[simp] theorem State.modNode_dist (s : State) (k : NodeId) (f : Node → Node) (e : DistrictId) :
    (s.modNode k f).dist e = s.dist e := rfl

@[simp] theorem State.modNode_slot (s : State) (k : NodeId) (f : Node → Node) (m : SlotId) :
    (s.modNode k f).slot m = s.slot m := rfl

@[simp] theorem State.modNode_feed (s : State) (k : NodeId) (f : Node → Node) (j : FeedId) :
    (s.modNode k f).feed j = s.feed j := rfl

@[simp] theorem State.modNode_engine (s : State) (k : NodeId) (f : Node → Node) (i : EngineId) :
    (s.modNode k f).engine i = s.engine i := rfl

@[simp] theorem State.modNode_line_eq (s : State) (k : NodeId) (f : Node → Node) (z : FeedId) :
    (s.modNode k f).lines[z] = s.lines[z] := rfl

@[simp] theorem State.node_modNode_same (s : State) (k : NodeId) (f : Node → Node) :
    (s.modNode k f).node k = f (s.node k) :=
  get_put_same _ _ _

theorem State.node_modNode (s : State) (k : NodeId) (f : Node → Node) (z : NodeId) :
    (s.modNode k f).node z = if z = k then f (s.node k) else s.node z := by
  simp only [State.modNode, State.node, get_put]

theorem State.node_modNode_other (s : State) (k : NodeId) (f : Node → Node) (z : NodeId) (h : z ≠ k) :
    (s.modNode k f).node z = s.node z := by
  rw [State.node_modNode, if_neg h]

/-! ### modControl -/

@[simp] theorem State.modControl_districts (s : State) (f : Control → Control) :
    (s.modControl f).districts = s.districts := rfl

@[simp] theorem State.modControl_adjacency (s : State) (f : Control → Control) :
    (s.modControl f).adjacency = s.adjacency := rfl

@[simp] theorem State.modControl_feeds (s : State) (f : Control → Control) :
    (s.modControl f).feeds = s.feeds := rfl

@[simp] theorem State.modControl_lines (s : State) (f : Control → Control) :
    (s.modControl f).lines = s.lines := rfl

@[simp] theorem State.modControl_drainTimer (s : State) (f : Control → Control) :
    (s.modControl f).drainTimer = s.drainTimer := rfl

@[simp] theorem State.modControl_slots (s : State) (f : Control → Control) :
    (s.modControl f).slots = s.slots := rfl

@[simp] theorem State.modControl_nextId (s : State) (f : Control → Control) :
    (s.modControl f).nextId = s.nextId := rfl

@[simp] theorem State.modControl_queue (s : State) (f : Control → Control) :
    (s.modControl f).queue = s.queue := rfl

@[simp] theorem State.modControl_engines (s : State) (f : Control → Control) :
    (s.modControl f).engines = s.engines := rfl

@[simp] theorem State.modControl_timeBase (s : State) (f : Control → Control) :
    (s.modControl f).timeBase = s.timeBase := rfl

@[simp] theorem State.modControl_nodes (s : State) (f : Control → Control) :
    (s.modControl f).nodes = s.nodes := rfl

@[simp] theorem State.modControl_nextNode (s : State) (f : Control → Control) :
    (s.modControl f).nextNode = s.nextNode := rfl

@[simp] theorem State.modControl_exchange (s : State) (f : Control → Control) :
    (s.modControl f).exchange = s.exchange := rfl

@[simp] theorem State.modControl_hold (s : State) (f : Control → Control) :
    (s.modControl f).hold = s.hold := rfl

@[simp] theorem State.modControl_freeze (s : State) (f : Control → Control) :
    (s.modControl f).freeze = s.freeze := rfl

@[simp] theorem State.modControl_corrections (s : State) (f : Control → Control) :
    (s.modControl f).corrections = s.corrections := rfl

@[simp] theorem State.modControl_windowBase (s : State) (f : Control → Control) :
    (s.modControl f).windowBase = s.windowBase := rfl

@[simp] theorem State.modControl_access (s : State) (f : Control → Control) :
    (s.modControl f).access = s.access := rfl

@[simp] theorem State.modControl_face (s : State) (f : Control → Control) :
    (s.modControl f).face = s.face := rfl

@[simp] theorem State.modControl_readData (s : State) (f : Control → Control) :
    (s.modControl f).readData = s.readData := rfl

@[simp] theorem State.modControl_ring (s : State) (f : Control → Control) :
    (s.modControl f).ring = s.ring := rfl

@[simp] theorem State.modControl_lastCommand (s : State) (f : Control → Control) :
    (s.modControl f).lastCommand = s.lastCommand := rfl

@[simp] theorem State.modControl_lastResetCause (s : State) (f : Control → Control) :
    (s.modControl f).lastResetCause = s.lastResetCause := rfl

@[simp] theorem State.modControl_inReset (s : State) (f : Control → Control) :
    (s.modControl f).inReset = s.inReset := rfl

@[simp] theorem State.modControl_mem (s : State) (f : Control → Control) :
    (s.modControl f).mem = s.mem := rfl

@[simp] theorem State.modControl_choices (s : State) (f : Control → Control) :
    (s.modControl f).choices = s.choices := rfl

@[simp] theorem State.modControl_pending (s : State) (f : Control → Control) :
    (s.modControl f).pending = s.pending := rfl

@[simp] theorem State.modControl_dist (s : State) (f : Control → Control) (e : DistrictId) :
    (s.modControl f).dist e = s.dist e := rfl

@[simp] theorem State.modControl_slot (s : State) (f : Control → Control) (m : SlotId) :
    (s.modControl f).slot m = s.slot m := rfl

@[simp] theorem State.modControl_feed (s : State) (f : Control → Control) (j : FeedId) :
    (s.modControl f).feed j = s.feed j := rfl

@[simp] theorem State.modControl_engine (s : State) (f : Control → Control) (i : EngineId) :
    (s.modControl f).engine i = s.engine i := rfl

@[simp] theorem State.modControl_node (s : State) (f : Control → Control) (j : NodeId) :
    (s.modControl f).node j = s.node j := rfl

@[simp] theorem State.modControl_line_eq (s : State) (f : Control → Control) (z : FeedId) :
    (s.modControl f).lines[z] = s.lines[z] := rfl

@[simp] theorem State.modControl_control (s : State) (f : Control → Control) :
    (s.modControl f).control = f s.control := rfl

/-! ### modRing -/

@[simp] theorem State.modRing_control (s : State) (f : RingWriter → RingWriter) :
    (s.modRing f).control = s.control := rfl

@[simp] theorem State.modRing_districts (s : State) (f : RingWriter → RingWriter) :
    (s.modRing f).districts = s.districts := rfl

@[simp] theorem State.modRing_adjacency (s : State) (f : RingWriter → RingWriter) :
    (s.modRing f).adjacency = s.adjacency := rfl

@[simp] theorem State.modRing_feeds (s : State) (f : RingWriter → RingWriter) :
    (s.modRing f).feeds = s.feeds := rfl

@[simp] theorem State.modRing_lines (s : State) (f : RingWriter → RingWriter) :
    (s.modRing f).lines = s.lines := rfl

@[simp] theorem State.modRing_drainTimer (s : State) (f : RingWriter → RingWriter) :
    (s.modRing f).drainTimer = s.drainTimer := rfl

@[simp] theorem State.modRing_slots (s : State) (f : RingWriter → RingWriter) :
    (s.modRing f).slots = s.slots := rfl

@[simp] theorem State.modRing_nextId (s : State) (f : RingWriter → RingWriter) :
    (s.modRing f).nextId = s.nextId := rfl

@[simp] theorem State.modRing_queue (s : State) (f : RingWriter → RingWriter) :
    (s.modRing f).queue = s.queue := rfl

@[simp] theorem State.modRing_engines (s : State) (f : RingWriter → RingWriter) :
    (s.modRing f).engines = s.engines := rfl

@[simp] theorem State.modRing_timeBase (s : State) (f : RingWriter → RingWriter) :
    (s.modRing f).timeBase = s.timeBase := rfl

@[simp] theorem State.modRing_nodes (s : State) (f : RingWriter → RingWriter) :
    (s.modRing f).nodes = s.nodes := rfl

@[simp] theorem State.modRing_nextNode (s : State) (f : RingWriter → RingWriter) :
    (s.modRing f).nextNode = s.nextNode := rfl

@[simp] theorem State.modRing_exchange (s : State) (f : RingWriter → RingWriter) :
    (s.modRing f).exchange = s.exchange := rfl

@[simp] theorem State.modRing_hold (s : State) (f : RingWriter → RingWriter) :
    (s.modRing f).hold = s.hold := rfl

@[simp] theorem State.modRing_freeze (s : State) (f : RingWriter → RingWriter) :
    (s.modRing f).freeze = s.freeze := rfl

@[simp] theorem State.modRing_corrections (s : State) (f : RingWriter → RingWriter) :
    (s.modRing f).corrections = s.corrections := rfl

@[simp] theorem State.modRing_windowBase (s : State) (f : RingWriter → RingWriter) :
    (s.modRing f).windowBase = s.windowBase := rfl

@[simp] theorem State.modRing_access (s : State) (f : RingWriter → RingWriter) :
    (s.modRing f).access = s.access := rfl

@[simp] theorem State.modRing_face (s : State) (f : RingWriter → RingWriter) :
    (s.modRing f).face = s.face := rfl

@[simp] theorem State.modRing_readData (s : State) (f : RingWriter → RingWriter) :
    (s.modRing f).readData = s.readData := rfl

@[simp] theorem State.modRing_lastCommand (s : State) (f : RingWriter → RingWriter) :
    (s.modRing f).lastCommand = s.lastCommand := rfl

@[simp] theorem State.modRing_lastResetCause (s : State) (f : RingWriter → RingWriter) :
    (s.modRing f).lastResetCause = s.lastResetCause := rfl

@[simp] theorem State.modRing_inReset (s : State) (f : RingWriter → RingWriter) :
    (s.modRing f).inReset = s.inReset := rfl

@[simp] theorem State.modRing_mem (s : State) (f : RingWriter → RingWriter) :
    (s.modRing f).mem = s.mem := rfl

@[simp] theorem State.modRing_choices (s : State) (f : RingWriter → RingWriter) :
    (s.modRing f).choices = s.choices := rfl

@[simp] theorem State.modRing_pending (s : State) (f : RingWriter → RingWriter) :
    (s.modRing f).pending = s.pending := rfl

@[simp] theorem State.modRing_dist (s : State) (f : RingWriter → RingWriter) (e : DistrictId) :
    (s.modRing f).dist e = s.dist e := rfl

@[simp] theorem State.modRing_slot (s : State) (f : RingWriter → RingWriter) (m : SlotId) :
    (s.modRing f).slot m = s.slot m := rfl

@[simp] theorem State.modRing_feed (s : State) (f : RingWriter → RingWriter) (j : FeedId) :
    (s.modRing f).feed j = s.feed j := rfl

@[simp] theorem State.modRing_engine (s : State) (f : RingWriter → RingWriter) (i : EngineId) :
    (s.modRing f).engine i = s.engine i := rfl

@[simp] theorem State.modRing_node (s : State) (f : RingWriter → RingWriter) (j : NodeId) :
    (s.modRing f).node j = s.node j := rfl

@[simp] theorem State.modRing_line_eq (s : State) (f : RingWriter → RingWriter) (z : FeedId) :
    (s.modRing f).lines[z] = s.lines[z] := rfl

@[simp] theorem State.modRing_ring (s : State) (f : RingWriter → RingWriter) :
    (s.modRing f).ring = f s.ring := rfl

end Sys2Proof.Machine
end

