-- ==== Sys2Proof/Laws/Ops.lean ====
section
/-! SUPPORT. What each shared operation can do, said once: claims and their checks, notices, scans, free
orders, entries to a state, marks and stored intents. -/

namespace Sys2Proof.Machine

open Sys2Proof

/-! ### Running and claims -/

@[simp] theorem State.running_of_run (s : State) (f : State → State) (h : s.inReset = false) :
    s.running f = f s := by
  simp [State.running, h]

@[simp] theorem State.running_of_held (s : State) (f : State → State) (h : s.inReset = true) :
    s.running f = s := by
  simp [State.running, h]

/-- A claim whose context passes its check has its own effect. -/
theorem State.claim_of_passes (s : State) (d : DistrictId) (f : State → State)
    (h : s.checkFails d = false) : s.claim d f = s.finish d (f s) := by
  simp [State.claim, h]

/-- A claim whose context fails its check is the check error. -/
theorem State.claim_of_fails (s : State) (d : DistrictId) (f : State → State)
    (h : s.checkFails d = true) : s.claim d f = s.finish d (s.checkError d) := by
  simp [State.claim, h, State.raiseCheck]

/-- A claim is the claim without its scan, and then the scan. -/
theorem State.claim_eq_rescan (s : State) (d : DistrictId) (f : State → State) :
    s.claim d f = s.rescan (s.claimUnscanned d f) := by
  unfold State.claim State.claimUnscanned State.raiseCheck State.finish
  split <;> rfl

/-- An invalid context is not checked (R21). -/
theorem State.checkFails_of_invalid (s : State) (d : DistrictId) (h : (s.dist d).invalid = true) :
    s.checkFails d = false := by
  simp [State.checkFails, h]

/-- A context that agrees with its code passes. -/
theorem State.checkFails_of_agrees (s : State) (d : DistrictId) (h : (s.dist d).codeAgrees = true) :
    s.checkFails d = false := by
  simp [State.checkFails, h]

/-! ### The end of a claim -/

theorem State.freedSince_of_same (before after : State) (h : after.engines = before.engines) :
    before.freedSince after = false := by
  simp only [State.freedSince, State.engine, h, List.any_eq_false]
  intro e _
  cases before.engines[e].district <;> simp

/-- No scan follows when the queue and the engines stand as they were. -/
theorem State.rescan_of_same (before after : State) (hq : after.queue = before.queue)
    (he : after.engines = before.engines) : before.rescan after = after := by
  simp [State.rescan, hq, State.freedSince_of_same before after he]

/-- No notice follows when d's state stands as it was. -/
theorem State.notify_of_same (before : State) (d : DistrictId) (after : State)
    (h : (after.dist d).state = (before.dist d).state) : before.notify d after = after := by
  simp [State.notify, h]

/-- A district in no incident gives no notice. -/
theorem State.notify_of_no_incident (before : State) (d : DistrictId) (after : State)
    (h : (after.dist d).incidentSlot = .none) : before.notify d after = after := by
  unfold State.notify
  split
  · rfl
  · rw [h]

/-- A claim that leaves d's state, the queue and the engines as they were brings nothing else. -/
theorem State.finish_of_same (before : State) (d : DistrictId) (after : State)
    (hs : (after.dist d).state = (before.dist d).state) (hq : after.queue = before.queue)
    (he : after.engines = before.engines) : before.finish d after = after := by
  rw [State.finish, State.notify_of_same before d after hs, State.rescan_of_same before after hq he]

/-- A claim at a district in no incident that leaves the queue and the engines brings nothing else. -/
theorem State.finish_of_no_incident (before : State) (d : DistrictId) (after : State)
    (hn : (after.dist d).incidentSlot = .none) (hq : after.queue = before.queue)
    (he : after.engines = before.engines) : before.finish d after = after := by
  rw [State.finish, State.notify_of_no_incident before d after hn, State.rescan_of_same before after hq he]

/-! ### Scans -/

/-- With HOLD asserted no district is admissible (R69). -/
theorem State.admissible_of_hold (s : State) (d : DistrictId) (h : s.hold = true) :
    s.admissible d = false := by
  simp [State.admissible, h]

/-- What the four tests of R69 say. -/
theorem State.admissible_iff (s : State) (d : DistrictId) :
    s.admissible d = true ↔
      s.hold = false ∧ (s.feed (s.dist d).feed).state = .up
        ∧ (s.feed (s.dist d).feed).engaged < (s.feed (s.dist d).feed).concurrencyRamps
        ∧ (s.feed (s.dist d).feed).stress + (s.dist d).weight ≤ (s.feed (s.dist d).feed).ceilingUnits := by
  simp [State.admissible, and_assoc]

/-- A scan that finds no admissible entry changes nothing. -/
theorem State.scan_of_none (s : State) (h : s.queue.find? s.admissible = none) : s.scan = s := by
  unfold State.scan scanLoop
  rw [h]
  split
  · next he => simp_all
  · rfl

/-- A scan that finds no IDLE engine changes nothing. -/
theorem State.scan_of_busy (s : State) (h : s.idleEngine = none) : s.scan = s := by
  unfold State.scan scanLoop
  rw [h]

/-- While HOLD is asserted a scan changes nothing (R157). -/
theorem State.scan_of_hold (s : State) (h : s.hold = true) : s.scan = s := by
  apply State.scan_of_none
  rw [List.find?_eq_none]
  intro d _
  simp [State.admissible_of_hold s d h]

/-- A grant goes to an IDLE engine and an admissible entry of the queue, so a property that every such
grant keeps is kept by a scan. -/
theorem scanLoop_keeps {P : State → Prop}
    (hg : ∀ s e d, P s → (s.engine e).district = .none → d ∈ s.queue → s.admissible d = true →
      P (s.grant e d)) :
    ∀ fuel s, P s → P (scanLoop fuel s) := by
  intro fuel
  induction fuel with
  | zero => intro s h; exact h
  | succ n ih =>
    intro s h
    unfold scanLoop
    split
    · next e d he hd =>
      have h1 : (s.engine e).district = .none := by
        have := List.find?_some he
        simpa using this
      exact ih _ (hg s e d h h1 (List.mem_of_find?_eq_some hd) (List.find?_some hd))
    · exact h

/-- The same for a whole scan. -/
theorem State.scan_keeps {P : State → Prop}
    (hg : ∀ s e d, P s → (s.engine e).district = .none → d ∈ s.queue → s.admissible d = true →
      P (s.grant e d))
    (s : State) (h : P s) : P s.scan :=
  scanLoop_keeps hg 65 s h

/-! ### Notices -/

/-- The notice of a member of slot n is that slot looked at again (R10). -/
theorem State.notify_of_member (before : State) (d : DistrictId) (after : State) (n : SlotId)
    (hs : (before.dist d).state ≠ (after.dist d).state) (hn : (after.dist d).incidentSlot = some n) :
    before.notify d after = settleSlot 33 n after := by
  simp [State.notify, hs, hn]

/-- A slot with every member settled closes (R49). -/
theorem settleSlot_of_settled (k : Nat) (n : SlotId) (s : State) (h : (s.slot n).state = .recovering)
    (ha : s.allSettled n = true) : settleSlot (k + 1) n s = s.closeSlot n := by
  simp [settleSlot, h, ha]

/-- A slot whose gate is shut, with a member not settled, stands (R46). -/
theorem settleSlot_of_shut (k : Nat) (n : SlotId) (s : State) (ha : s.allSettled n = false)
    (hg : s.gateOpen n = false) : settleSlot (k + 1) n s = s := by
  simp [settleSlot, ha, hg]

/-- A slot with no GATED suspect, and a member not settled, stands (R47). -/
theorem settleSlot_of_none (k : Nat) (n : SlotId) (s : State) (ha : s.allSettled n = false)
    (hf : s.firstGated n = .none) : settleSlot (k + 1) n s = s := by
  simp [settleSlot, ha, hf]

/-- Through an open gate the first GATED suspect is released, and the slot is looked at again (R47). -/
theorem settleSlot_of_gated (k : Nat) (n : SlotId) (s : State) (d : DistrictId)
    (h : (s.slot n).state = .recovering) (ha : s.allSettled n = false) (hg : s.gateOpen n = true)
    (hf : s.firstGated n = some d) : settleSlot (k + 1) n s = settleSlot k n (s.releaseSuspect d) := by
  simp [settleSlot, h, ha, hg, hf]

/-- A property that a closing and every release of a GATED district keep is kept by a notice. -/
theorem settleSlot_keeps {P : State → Prop} (hc : ∀ s n, P s → P (s.closeSlot n))
    (hr : ∀ s d, P s → (s.dist d).state = .gated → P (s.releaseSuspect d)) :
    ∀ fuel n s, P s → P (settleSlot fuel n s) := by
  intro fuel
  induction fuel with
  | zero => intro n s h; exact h
  | succ k ih =>
    intro n s h
    unfold settleSlot
    split
    · exact h
    · split
      · exact hc s n h
      · split
        · split
          · next d hd =>
            have hs : (s.dist d).state = .gated := by
              have := List.find?_some hd
              simpa using this
            exact ih n _ (hr s d h hs)
          · exact h
        · exact h

/-- The same for the notice of a claim. -/
theorem State.notify_keeps {P : State → Prop} (hc : ∀ s n, P s → P (s.closeSlot n))
    (hr : ∀ s d, P s → (s.dist d).state = .gated → P (s.releaseSuspect d))
    (before : State) (d : DistrictId) (after : State) (h : P after) : P (before.notify d after) := by
  unfold State.notify
  split
  · exact h
  · split
    · exact settleSlot_keeps hc hr 33 _ after h
    · exact h

/-- A property that closings, releases and grants keep is kept by the end of a claim. -/
theorem State.finish_keeps {P : State → Prop} (hc : ∀ s n, P s → P (s.closeSlot n))
    (hr : ∀ s d, P s → (s.dist d).state = .gated → P (s.releaseSuspect d))
    (hg : ∀ s e d, P s → (s.engine e).district = .none → d ∈ s.queue → s.admissible d = true →
      P (s.grant e d))
    (before : State) (d : DistrictId) (after : State) (h : P after) : P (before.finish d after) := by
  have hn := State.notify_keeps hc hr before d after h
  unfold State.finish State.rescan
  split
  · exact State.scan_keeps hg _ hn
  · exact hn

/-! ### Free orders -/

/-- A free order takes every item, each as often as it stands in the list. -/
theorem arrangeFrom_perm {α : Type} (n : Nat) : ∀ (k : Nat) (l : List α), (arrangeFrom n k l).Perm l := by
  intro k
  induction k with
  | zero => intro l; exact List.Perm.refl l
  | succ k ih =>
    intro l
    unfold arrangeFrom
    split
    · exact List.Perm.refl l
    · split
      · next a ha =>
        have hlt : Config.pick n k % l.length < l.length := by
          rw [List.getElem?_eq_some_iff] at ha
          exact ha.1
        have hp : (l[Config.pick n k % l.length] :: l.eraseIdx (Config.pick n k % l.length)).Perm l :=
          List.getElem_cons_eraseIdx_perm hlt
        rw [List.getElem?_eq_some_iff] at ha
        obtain ⟨_, ha⟩ := ha
        rw [ha] at hp
        exact ((ih _).cons a).trans hp
      · exact List.Perm.refl l

/-- A property kept by each claim of a list, and by the counter of choices, is kept by taking them all in
a free order. -/
theorem State.inFreeOrder_keeps {α : Type} {P : State → Prop} (l : List α) (f : α → State → State)
    (hc : ∀ s : State, P s → P { s with choices := s.choices + 1 })
    (hf : ∀ a ∈ l, ∀ s, P s → P (f a s)) (s : State) (h : P s) : P (s.inFreeOrder l f) := by
  have fold : ∀ (m : List α), (∀ a ∈ m, a ∈ l) → ∀ t, P t → P (m.foldl (fun t a => f a t) t) := by
    intro m
    induction m with
    | nil => intro _ t ht; exact ht
    | cons a m ih =>
      intro hm t ht
      exact ih (fun b hb => hm b (List.mem_cons_of_mem _ hb)) _ (hf a (hm a List.mem_cons_self) t ht)
  unfold State.inFreeOrder
  split
  · exact fold l (fun _ h => h) s h
  · exact fold _ (fun a ha => (arrangeFrom_perm _ _ l).mem_iff.mp ha) _ (hc s h)

/-- At most one claim is taken directly. -/
theorem State.inFreeOrder_nil {α : Type} (s : State) (f : α → State → State) : s.inFreeOrder [] f = s := rfl

theorem State.inFreeOrder_one {α : Type} (s : State) (a : α) (f : α → State → State) :
    s.inFreeOrder [a] f = f a s := rfl

/-- A property kept by each item is kept by a fold. -/
theorem foldl_keeps {α β : Type} {P : β → Prop} (f : β → α → β) (l : List α)
    (hf : ∀ a ∈ l, ∀ t, P t → P (f t a)) : ∀ t, P t → P (l.foldl f t) := by
  induction l with
  | nil => intro t h; exact h
  | cons a l ih =>
    intro t h
    exact ih (fun b hb => hf b (List.mem_cons_of_mem _ hb)) _ (hf a List.mem_cons_self t h)

/-! ### Entering a state -/

@[simp] theorem State.dist_enter_same (s : State) (d : DistrictId) (st : DistrictState) :
    (s.enter d st).dist d = (s.dist d).enter s.control st :=
  State.dist_modDist_same s d _

theorem State.dist_enter_other (s : State) (d e : DistrictId) (st : DistrictState) (h : e ≠ d) :
    (s.enter d st).dist e = s.dist e :=
  State.dist_modDist_other s d _ e h

@[simp] theorem District.enter_state (c : Control) (st : DistrictState) (x : District) :
    (x.enter c st).state = st := rfl

@[simp] theorem District.enter_words (c : Control) (st : DistrictState) (x : District) :
    (x.enter c st).words = x.words := rfl

@[simp] theorem District.enter_polarity (c : Control) (st : DistrictState) (x : District) :
    (x.enter c st).polarity = x.polarity := rfl

@[simp] theorem District.enter_attempts (c : Control) (st : DistrictState) (x : District) :
    (x.enter c st).attempts = x.attempts := rfl

@[simp] theorem District.enter_flags (c : Control) (st : DistrictState) (x : District) :
    (x.enter c st).flags = x.flags := rfl

@[simp] theorem District.enter_incidentSlot (c : Control) (st : DistrictState) (x : District) :
    (x.enter c st).incidentSlot = x.incidentSlot := rfl

@[simp] theorem District.enter_invalid (c : Control) (st : DistrictState) (x : District) :
    (x.enter c st).invalid = x.invalid := rfl

/-! ### Marks and stored intents -/

/-- A position added to a correction set is in it, and nothing else joins. -/
theorem mem_insertPosition (p q : IntentPos) (l : List IntentPos) :
    q ∈ insertPosition p l ↔ q = p ∨ q ∈ l := by
  induction l with
  | nil => simp [insertPosition]
  | cons r rest ih =>
    unfold insertPosition
    split
    · next h => subst h; simp
    · split
      · simp
      · simp only [List.mem_cons, ih]
        constructor
        · rintro (h | h | h) <;> simp [h]
        · rintro (h | h | h) <;> simp [h]

/-- A position's mark is cleared by unmark, and no other mark changes. -/
theorem State.mem_unmark (s : State) (p q : IntentPos) :
    q ∈ (s.unmark p).corrections ↔ q ∈ s.corrections ∧ q ≠ p := by
  simp [State.unmark]

@[simp] theorem State.mem_storeIntent (s : State) (p : IntentPos) (v : Word) :
    (s.storeIntent p v).mem = Memory.write s.mem (addressOf s.windowBase p) .both v := by
  cases p <;> rfl

@[simp] theorem State.queue_storeIntent (s : State) (p : IntentPos) (v : Word) :
    (s.storeIntent p v).queue = s.queue := by
  cases p <;> rfl

@[simp] theorem State.engines_storeIntent (s : State) (p : IntentPos) (v : Word) :
    (s.storeIntent p v).engines = s.engines := by
  cases p <;> rfl

@[simp] theorem State.slots_storeIntent (s : State) (p : IntentPos) (v : Word) :
    (s.storeIntent p v).slots = s.slots := by
  cases p <;> rfl

/-- A host write clears the mark of its position and no other (R132). -/
theorem State.mem_corrections_storeIntent (s : State) (p q : IntentPos) (v : Word) :
    q ∈ (s.storeIntent p v).corrections ↔ q ∈ s.corrections ∧ q ≠ p := by
  cases p <;> simp [State.storeIntent, State.unmark, State.writeMem, State.setCopy]

/-! ### Insertion into the restart queue -/

/-- An insertion puts d in once and keeps every other entry. -/
theorem insertAfterLast_perm (P : DistrictId → Bool) (d : DistrictId) (q : List DistrictId) :
    (insertAfterLast P d q).Perm (d :: q) := by
  unfold insertAfterLast
  have h := List.perm_middle (a := d) (l₁ := q.take (placeAfterLast P q)) (l₂ := q.drop (placeAfterLast P q))
  rw [List.take_append_drop] at h
  exact h

end Sys2Proof.Machine
end

