-- ==== Sys2Proof/Laws/Frames.lean ====
section
/-! SUPPORT. What no claim, notice, scan or cut can change: `Calm s t` says that t differs from s in the
districts, the slots, the queue, the engines, the marks, the Ring Writer's queues and the feeds' accounts
alone. -/

namespace Sys2Proof.Machine

open Sys2Proof

/-- A feed whose state, settings and settle timer stand, and whose stress account rises to at most 63. -/
structure Feed.Calm (x y : Feed) : Prop where
  state : y.state = x.state
  ceiling : y.ceiling = x.ceiling
  concurrency : y.concurrency = x.concurrency
  sagThreshold : y.sagThreshold = x.sagThreshold
  settleTime : y.settleTime = x.settleTime
  settleTimer : y.settleTimer = x.settleTimer
  settleRestarted : y.settleRestarted = x.settleRestarted
  stress : y.stress ≤ x.stress ∨ y.stress ≤ 63

theorem Feed.Calm.refl (x : Feed) : x.Calm x :=
  ⟨rfl, rfl, rfl, rfl, rfl, rfl, rfl, Or.inl (Nat.le_refl _)⟩

theorem Feed.Calm.trans {x y z : Feed} (h : x.Calm y) (g : y.Calm z) : x.Calm z :=
  ⟨g.state.trans h.state, g.ceiling.trans h.ceiling, g.concurrency.trans h.concurrency,
    g.sagThreshold.trans h.sagThreshold, g.settleTime.trans h.settleTime, g.settleTimer.trans h.settleTimer,
    g.settleRestarted.trans h.settleRestarted, by
      rcases g.stress with g | g
      · rcases h.stress with h | h
        · exact Or.inl (Nat.le_trans g h)
        · exact Or.inr (Nat.le_trans g h)
      · exact Or.inr g⟩

/-- The parts of the state that no claim changes. -/
structure Calm (s t : State) : Prop where
  mem : t.mem = s.mem
  control : t.control = s.control
  adjacency : t.adjacency = s.adjacency
  freeze : t.freeze = s.freeze
  hold : t.hold = s.hold
  lines : t.lines = s.lines
  drainTimer : t.drainTimer = s.drainTimer
  timeBase : t.timeBase = s.timeBase
  nodes : t.nodes = s.nodes
  nextNode : t.nextNode = s.nextNode
  exchange : t.exchange = s.exchange
  windowBase : t.windowBase = s.windowBase
  access : t.access = s.access
  face : t.face = s.face
  readData : t.readData = s.readData
  producer : t.ring.producer = s.ring.producer
  progress : t.ring.progress = s.ring.progress
  layoutReset : t.ring.layoutReset = s.ring.layoutReset
  lastCommand : t.lastCommand = s.lastCommand
  lastResetCause : t.lastResetCause = s.lastResetCause
  inReset : t.inReset = s.inReset
  pending : t.pending = s.pending
  feed : ∀ k, (s.feed k).Calm (t.feed k)

theorem Calm.refl (s : State) : Calm s s := by
  constructor <;> first | rfl | (intro k; exact Feed.Calm.refl _)

theorem Calm.trans {s t u : State} (h : Calm s t) (g : Calm t u) : Calm s u where
  mem := g.mem.trans h.mem
  control := g.control.trans h.control
  adjacency := g.adjacency.trans h.adjacency
  freeze := g.freeze.trans h.freeze
  hold := g.hold.trans h.hold
  lines := g.lines.trans h.lines
  drainTimer := g.drainTimer.trans h.drainTimer
  timeBase := g.timeBase.trans h.timeBase
  nodes := g.nodes.trans h.nodes
  nextNode := g.nextNode.trans h.nextNode
  exchange := g.exchange.trans h.exchange
  windowBase := g.windowBase.trans h.windowBase
  access := g.access.trans h.access
  face := g.face.trans h.face
  readData := g.readData.trans h.readData
  producer := g.producer.trans h.producer
  progress := g.progress.trans h.progress
  layoutReset := g.layoutReset.trans h.layoutReset
  lastCommand := g.lastCommand.trans h.lastCommand
  lastResetCause := g.lastResetCause.trans h.lastResetCause
  inReset := g.inReset.trans h.inReset
  pending := g.pending.trans h.pending
  feed := fun k => (h.feed k).trans (g.feed k)

/-! ### Replacements -/

theorem calm_modDist (s : State) (d : DistrictId) (f : District → District) : Calm s (s.modDist d f) := by
  constructor <;> first | rfl | (intro k; exact Feed.Calm.refl _)

theorem calm_modSlot (s : State) (n : SlotId) (f : Slot → Slot) : Calm s (s.modSlot n f) := by
  constructor <;> first | rfl | (intro k; exact Feed.Calm.refl _)

theorem calm_modEngine (s : State) (e : EngineId) (f : Engine → Engine) : Calm s (s.modEngine e f) := by
  constructor <;> first | rfl | (intro k; exact Feed.Calm.refl _)

theorem calm_modFeed (s : State) (k : FeedId) (f : Feed → Feed) (h : (s.feed k).Calm (f (s.feed k))) :
    Calm s (s.modFeed k f) := by
  constructor <;> first | rfl | skip
  intro j
  rw [State.feed_modFeed]
  split
  · next e => subst e; exact h
  · exact Feed.Calm.refl _

theorem calm_modRing (s : State) (f : RingWriter → RingWriter) (hp : (f s.ring).producer = s.ring.producer)
    (hg : (f s.ring).progress = s.ring.progress) (hl : (f s.ring).layoutReset = s.ring.layoutReset) :
    Calm s (s.modRing f) := by
  constructor <;> first | rfl | exact hp | exact hg | exact hl | (intro k; exact Feed.Calm.refl _)

theorem calm_queue (s : State) (q : List DistrictId) : Calm s { s with queue := q } := by
  constructor <;> first | rfl | (intro k; exact Feed.Calm.refl _)

theorem calm_corrections (s : State) (c : List IntentPos) : Calm s { s with corrections := c } := by
  constructor <;> first | rfl | (intro k; exact Feed.Calm.refl _)

theorem calm_nextId (s : State) (n : Byte) : Calm s { s with nextId := n } := by
  constructor <;> first | rfl | (intro k; exact Feed.Calm.refl _)

theorem calm_choices (s : State) (n : Nat) : Calm s { s with choices := n } := by
  constructor <;> first | rfl | (intro k; exact Feed.Calm.refl _)

theorem calm_slots (s : State) (v : Vector Slot 4) : Calm s { s with slots := v } := by
  constructor <;> first | rfl | (intro k; exact Feed.Calm.refl _)

/-! ### Folds and free orders -/

theorem calm_foldl {α : Type} (f : State → α → State) (l : List α) (hf : ∀ a ∈ l, ∀ t, Calm t (f t a)) :
    ∀ s, Calm s (l.foldl f s) := fun s =>
  foldl_keeps (P := fun t => Calm s t) f l (fun a ha t ht => ht.trans (hf a ha t)) s (Calm.refl s)

theorem calm_inFreeOrder {α : Type} (l : List α) (f : α → State → State)
    (hf : ∀ a ∈ l, ∀ t, Calm t (f a t)) (s : State) : Calm s (s.inFreeOrder l f) :=
  State.inFreeOrder_keeps (P := fun t => Calm s t) l f (fun t ht => ht.trans (calm_choices t _))
    (fun a ha t ht => ht.trans (hf a ha t)) s (Calm.refl s)

/-! ### The shared operations -/

theorem calm_mark (s : State) (p : IntentPos) : Calm s (s.mark p) := by
  unfold State.mark
  split
  · exact Calm.refl s
  · exact calm_corrections s _

theorem calm_unmark (s : State) (p : IntentPos) : Calm s (s.unmark p) := calm_corrections s _

theorem calm_unmarkDistrict (s : State) (d : DistrictId) : Calm s (s.unmarkDistrict d) := calm_corrections s _

theorem calm_enter (s : State) (d : DistrictId) (st : DistrictState) : Calm s (s.enter d st) :=
  calm_modDist s d _

theorem calm_setIntentOff (s : State) (d : DistrictId) : Calm s (s.setIntentOff d) := calm_modDist s d _

theorem calm_enterQueued (s : State) (d : DistrictId) (b : Bool) : Calm s (s.enterQueued d b) :=
  ((calm_modDist s d _).trans (calm_enter _ d _)).trans (calm_queue _ _)

theorem calm_returnToQueue (s : State) (d : DistrictId) : Calm s (s.returnToQueue d) :=
  (calm_enter s d _).trans (calm_queue _ _)

theorem calm_freeEngine (s : State) (e : EngineId) : Calm s (s.freeEngine e) :=
  (calm_modFeed s _ _ ⟨rfl, rfl, rfl, rfl, rfl, rfl, rfl, Or.inl (Nat.le_refl _)⟩).trans (calm_modEngine _ e _)

theorem calm_freeEngineOf (s : State) (d : DistrictId) : Calm s (s.freeEngineOf d) := by
  unfold State.freeEngineOf
  split
  · exact calm_freeEngine s _
  · exact Calm.refl s

theorem calm_countAttempt (s : State) (d : DistrictId) : Calm s (s.countAttempt d) := calm_modDist s d _

theorem calm_depart (s : State) (d : DistrictId) : Calm s (s.depart d) :=
  (calm_freeEngineOf s d).trans (calm_queue _ _)

theorem calm_checkError (s : State) (d : DistrictId) : Calm s (s.checkError d) := by
  unfold State.checkError
  refine Calm.trans ?_ (calm_unmarkDistrict _ d)
  refine Calm.trans ?_ (calm_modDist _ d _)
  split
  · exact Calm.refl s
  · exact (calm_depart s d).trans (calm_enter _ d _)

theorem calm_acceptRecord (s : State) : Calm s s.acceptRecord := by
  unfold State.acceptRecord
  split
  · split
    · exact (calm_modRing s _ rfl rfl rfl).trans (calm_modSlot _ _ _)
    · exact Calm.refl s
  · exact Calm.refl s

theorem calm_closeSlot (s : State) (n : SlotId) : Calm s (s.closeSlot n) := by
  unfold State.closeSlot
  refine Calm.trans ?_ (calm_acceptRecord _)
  refine Calm.trans ?_ (calm_modRing _ _ rfl rfl rfl)
  refine Calm.trans ?_ (calm_modSlot _ _ _)
  exact calm_foldl _ _ (fun m _ t => calm_modDist t m.district _) s

theorem calm_releaseSuspect (s : State) (d : DistrictId) : Calm s (s.releaseSuspect d) := by
  unfold State.releaseSuspect
  split
  · exact calm_checkError s d
  · exact calm_enterQueued s d true

theorem calm_settleSlot (fuel : Nat) (n : SlotId) (s : State) : Calm s (settleSlot fuel n s) :=
  settleSlot_keeps (P := fun t => Calm s t) (fun t n h => h.trans (calm_closeSlot t n))
    (fun t d h _ => h.trans (calm_releaseSuspect t d)) fuel n s (Calm.refl s)

theorem calm_notify (before : State) (d : DistrictId) (after : State) :
    Calm after (before.notify d after) :=
  State.notify_keeps (P := fun t => Calm after t) (fun t n h => h.trans (calm_closeSlot t n))
    (fun t e h _ => h.trans (calm_releaseSuspect t e)) before d after (Calm.refl after)

theorem calm_commandStep (s : State) (e : EngineId) (d : DistrictId) (i : Nat) :
    Calm s (s.commandStep e d i) :=
  (calm_modEngine s e _).trans (calm_modDist _ d _)

theorem calm_completeRamp (s : State) (e : EngineId) (d : DistrictId) : Calm s (s.completeRamp e d) :=
  ((calm_enter s d _).trans (calm_countAttempt _ d)).trans (calm_freeEngine _ e)

/-- A field of `len` bits is below 2^len. -/
theorem field_lt (w : Word) (lo len : Nat) : field w lo len < 2 ^ len :=
  Nat.mod_lt _ (Nat.two_pow_pos len)

/-- No ceiling is above 63 (R71). -/
theorem Feed.ceilingUnits_le (x : Feed) : x.ceilingUnits ≤ 63 := by
  have : x.ceilingUnits < 64 := field_lt x.ceiling 0 6
  omega

/-- An admissible district's grant raises its feed's stress account to at most 63 (R71, R96). -/
theorem calm_beginRamp (s : State) (e : EngineId) (d : DistrictId) (h : s.admissible d = true) :
    Calm s (s.beginRamp e d) := by
  have hs : (s.feed (s.dist d).feed).stress + (s.dist d).weight ≤ 63 :=
    Nat.le_trans ((State.admissible_iff s d).mp h).2.2.2 (Feed.ceilingUnits_le _)
  have h4 : Calm s (s.takeEngine e d) := by
    unfold State.takeEngine
    refine Calm.trans ?_ (calm_modFeed _ _ _ ?_)
    · exact ((calm_queue s _).trans (calm_modEngine _ e _)).trans (calm_enter _ d _)
    · exact ⟨rfl, rfl, rfl, rfl, rfl, rfl, rfl, Or.inr hs⟩
  unfold State.beginRamp
  split
  · exact h4
  · exact h4.trans (calm_commandStep _ e d 1)

theorem calm_grant (s : State) (e : EngineId) (d : DistrictId) (h : s.admissible d = true) :
    Calm s (s.grant e d) := by
  unfold State.grant
  dsimp only
  split
  · exact (calm_checkError s d).trans (calm_notify _ _ _)
  · have ht : Calm s (s.notify d (s.beginRamp e d)) := (calm_beginRamp s e d h).trans (calm_notify _ _ _)
    split
    · exact (ht.trans (calm_completeRamp _ e d)).trans (calm_notify _ _ _)
    · exact ht

theorem calm_scan (s : State) : Calm s s.scan :=
  State.scan_keeps (P := fun t => Calm s t) (fun t e d h _ _ ha => h.trans (calm_grant t e d ha)) s
    (Calm.refl s)

theorem calm_rescan (before after : State) : Calm after (before.rescan after) := by
  unfold State.rescan
  split
  · exact calm_scan after
  · exact Calm.refl after

theorem calm_finish (before : State) (d : DistrictId) (after : State) : Calm after (before.finish d after) :=
  (calm_notify before d after).trans (calm_rescan before _)

theorem calm_raiseCheck (s : State) (d : DistrictId) : Calm s (s.raiseCheck d) :=
  (calm_checkError s d).trans (calm_finish _ _ _)

theorem calm_claim (s : State) (d : DistrictId) (f : State → State) (h : Calm s (f s)) :
    Calm s (s.claim d f) := by
  unfold State.claim
  split
  · exact calm_raiseCheck s d
  · exact h.trans (calm_finish _ _ _)

/-! ### Returns to the queue, cuts and closes -/

theorem calm_returnEffect (s : State) (d : DistrictId) : Calm s (s.returnEffect d) := by
  unfold State.returnEffect
  split
  · exact (calm_freeEngineOf s d).trans (calm_returnToQueue _ d)
  · exact (calm_modDist s d _).trans (calm_returnToQueue _ d)
  all_goals exact Calm.refl s

theorem calm_returnClaim (d : DistrictId) (s : State) : Calm s (State.returnClaim d s) := by
  unfold State.returnClaim
  split
  · exact calm_claim s d _ (calm_returnEffect s d)
  · exact Calm.refl s

theorem calm_flip (s : State) (d : DistrictId) : Calm s (s.flip d) := by
  have h : Calm s (s.enterReversing d) := (calm_modDist s d _).trans (calm_enter _ d .reversing)
  unfold State.flip
  split
  · exact h.trans (calm_returnToQueue _ d)
  · exact h

theorem calm_enterLockout (s : State) (d : DistrictId) : Calm s (s.enterLockout d) := by
  unfold State.enterLockout
  refine Calm.trans ?_ (calm_mark _ _)
  refine Calm.trans ?_ (calm_setIntentOff _ d)
  refine Calm.trans ?_ (calm_modDist _ d _)
  refine Calm.trans ?_ (calm_enter _ d _)
  split
  · exact calm_modSlot s _ _
  · exact Calm.refl s

theorem calm_enterCloseState (s : State) (d : DistrictId) : Calm s (s.enterCloseState d) := by
  unfold State.enterCloseState
  split
  · exact calm_enter s d _
  · split
    · exact calm_enterLockout s d
    · split
      · exact calm_flip s d
      all_goals exact calm_enter s d _

theorem calm_leaveEnergised (s : State) (d : DistrictId) : Calm s (s.leaveEnergised d) := by
  unfold State.leaveEnergised
  split
  · exact (calm_countAttempt s d).trans (calm_freeEngine _ _)
  · exact Calm.refl s

theorem calm_nameSlot (s : State) (d : DistrictId) (n : SlotId) : Calm s (s.nameSlot d n) :=
  calm_modDist s d _

theorem calm_join (s : State) (n : SlotId) (m : Member) : Calm s (s.join n m) :=
  (calm_modSlot s n _).trans (calm_nameSlot _ _ _)

theorem calm_openSlot (s : State) (n : SlotId) (m : Member) : Calm s (s.openSlot n m) :=
  ((calm_nextId s _).trans (calm_modSlot _ n _)).trans (calm_nameSlot _ _ _)

theorem calm_solitary (s : State) (d : DistrictId) (c : Cut) : Calm s (s.solitary d c) := by
  have h : Calm s ((s.recordSolitary d c).enterCloseState d) :=
    ((calm_modRing s _ rfl rfl rfl).trans (calm_modDist _ d _)).trans (calm_enterCloseState _ d)
  unfold State.solitary
  dsimp only
  split
  · exact h.trans (calm_modDist _ d _)
  · exact h

theorem calm_enterTripped (s : State) (d : DistrictId) (c : Cut) : Calm s (s.enterTripped d c) :=
  (calm_enter s d _).trans (calm_modDist _ d _)

theorem calm_newTrip (s : State) (d : DistrictId) (c : Cut) : Calm s (s.newTrip d c) := by
  have h := (calm_leaveEnergised s d).trans (calm_enterTripped _ d c)
  unfold State.newTrip
  dsimp only
  split
  · exact h.trans (calm_join _ _ _)
  · split
    · exact h.trans (calm_openSlot _ _ _)
    · exact h.trans (calm_solitary _ d c)

theorem calm_furtherCut (s : State) (n : SlotId) (d : DistrictId) (c : Cut) :
    Calm s (s.furtherCut n d c) := by
  unfold State.furtherCut
  dsimp only
  split
  · exact ((calm_modDist s d _).trans (calm_modDist _ d _)).trans (calm_modSlot _ n _)
  · exact calm_modDist s d _

theorem calm_setRole (s : State) (n : SlotId) (d : DistrictId) (r : Role) : Calm s (s.setRole n d r) :=
  (calm_modDist s d _).trans (calm_modSlot _ n _)

theorem calm_reTrip (s : State) (n : SlotId) (d : DistrictId) (c : Cut) : Calm s (s.reTrip n d c) := by
  have h : Calm s (s.becomeSuspect n d c) :=
    (((calm_leaveEnergised s d).trans (calm_modDist _ d _)).trans (calm_setRole _ n d _)).trans
      (calm_modSlot _ n _)
  unfold State.reTrip
  dsimp only
  split
  · exact h.trans (calm_enter _ d _)
  · split
    · exact h.trans (calm_enterLockout _ d)
    · exact h.trans (calm_enter _ d _)

theorem calm_takeCut (s : State) (d : DistrictId) (c : Cut) : Calm s (s.takeCut d c) := by
  unfold State.takeCut
  split
  · split
    · split
      · exact calm_furtherCut s _ d c
      all_goals first
        | exact Calm.refl s
        | exact ((calm_leaveEnergised s d).trans (calm_enter _ d _)).trans (calm_furtherCut _ _ d c)
    · split
      · exact calm_reTrip s _ d c
      · exact Calm.refl s
    all_goals exact Calm.refl s
  · split
    · exact calm_newTrip s d c
    · exact Calm.refl s

theorem calm_fixRoles (s : State) (n : SlotId) : Calm s (s.fixRoles n) := by
  unfold State.fixRoles
  dsimp only
  refine Calm.trans (calm_modSlot s n _) (calm_foldl _ _ ?_ _)
  intro m _ t
  split
  · exact Calm.refl t
  · exact calm_modDist t m.district _

theorem calm_enterMember (s : State) (m : Member) : Calm s (s.enterMember m) := by
  unfold State.enterMember
  split
  · exact Calm.refl s
  · split
    · exact calm_checkError s _
    · split
      · exact calm_enter s _ _
      · exact calm_enterCloseState s _

/-! ### The timers of districts and engines -/

theorem calm_holdoffExpires (d : DistrictId) (s : State) : Calm s (State.holdoffExpires d s) := by
  unfold State.holdoffExpires
  split
  · apply calm_claim
    unfold State.leaveHoldoff
    split
    · exact calm_enter s d _
    · exact calm_enterQueued s d true
  · exact Calm.refl s

theorem calm_restore (s : State) (d : DistrictId) : Calm s (s.restore d) := by
  unfold State.restore
  dsimp only
  split
  · exact (calm_modDist s d _).trans (calm_modSlot _ _ _)
  · exact calm_modDist s d _

theorem calm_provingExpires (d : DistrictId) (s : State) : Calm s (State.provingExpires d s) := by
  unfold State.provingExpires
  split
  · apply calm_claim
    unfold State.becomeLive
    refine Calm.trans ?_ (calm_enter _ d _)
    split
    · exact calm_restore s d
    · exact Calm.refl s
  · exact Calm.refl s

theorem calm_quietExpires (d : DistrictId) (s : State) : Calm s (State.quietExpires d s) := by
  unfold State.quietExpires
  split
  · exact calm_claim s d _ (calm_modDist s d _)
  · exact Calm.refl s

theorem calm_stallAbort (s : State) (e : EngineId) (d : DistrictId) : Calm s (s.stallAbort e d) :=
  (((calm_modDist s d _).trans (calm_countAttempt _ d)).trans (calm_freeEngine _ e)).trans (calm_takeCut _ d _)

theorem calm_stepExpires (e : EngineId) (s : State) : Calm s (State.stepExpires e s) := by
  unfold State.stepExpires
  dsimp only
  split
  · split
    · split
      · exact calm_commandStep s e _ _
      · exact calm_claim s _ _ (calm_completeRamp s e _)
    · split
      · exact calm_modEngine s e _
      · exact calm_claim s _ _ (calm_stallAbort s e _)
  · exact Calm.refl s

end Sys2Proof.Machine
end

