-- ==== Sys2Proof/Laws/LinkFrames.lean ====
section
/-! SUPPORT. What the link's claims, the lock claims and the two lockout clears can change: they are `Calm`,
and the exchange and the node table stand but where a REPORT or a miss says otherwise. -/

namespace Sys2Proof.Machine

open Sys2Proof

/-! ### Forming a POLL -/

theorem calm_pollChannel (k : NodeId) (s : State) (c : ChannelId) : Calm s (State.pollChannel k s c) := by
  unfold State.pollChannel
  split
  · exact Calm.refl s
  · split
    · exact (calm_raiseCheck s _).trans (calm_modDist _ _ _)
    · exact calm_modDist s _ _

/-- The channels formed before one change nothing but what a claim changes. -/
theorem calm_beforeChannel (s : State) (k : NodeId) (c : ChannelId) : Calm s (s.beforeChannel k c) :=
  calm_foldl _ _ (fun b _ t => calm_pollChannel k t b) s

/-- A POLL sends HOLD_OFF unless the node is PRESENT and the channel is not held (R110 cases 1 and 3). -/
theorem State.sendsOwn_of_not_holdOff (s : State) (k : NodeId) (c : ChannelId)
    (h : (s.checkedCommand k c).mode ≠ .holdOff) : s.sendsOwn k c = true := by
  by_contra hn
  apply h
  unfold State.checkedCommand State.commandFor
  cases s.mapped k c with
  | none => rfl
  | some d =>
    dsimp only
    rw [if_neg hn]
    split <;> rfl

/-! ### Loss, return, readings -/

theorem calm_loseDistrict (s : State) (d : DistrictId) : Calm s (s.loseDistrict d) := by
  unfold State.loseDistrict
  split
  all_goals first
    | exact Calm.refl s
    | exact (calm_depart s d).trans (calm_enter _ d _)

theorem calm_lossClaim (d : DistrictId) (s : State) : Calm s (State.lossClaim d s) :=
  calm_claim s d _ (calm_loseDistrict s d)

/-- A node's loss changes that node's state, and what the loss claims change. -/
theorem calm_loseNode (s : State) (k : NodeId) :
    Calm (s.modNode k (fun x => { x with state := .lost })) (s.loseNode k) :=
  calm_inFreeOrder _ _ (fun d _ t => calm_lossClaim d t) _

theorem calm_returnFromLoss (s : State) (d : DistrictId) : Calm s (s.returnFromLoss d) := by
  unfold State.returnFromLoss
  split
  · exact calm_enterQueued s d false
  · exact calm_enter s d _

/-- A claim without its scan changes nothing but what its effect and its notice change. -/
theorem calm_claimUnscanned (s : State) (d : DistrictId) (f : State → State) (h : Calm s (f s)) :
    Calm s (s.claimUnscanned d f) := by
  unfold State.claimUnscanned
  refine Calm.trans ?_ (calm_notify s d _)
  split
  · exact calm_checkError s d
  · exact h

theorem calm_returnClaimAt (k : NodeId) (s : State) (c : ChannelId) : Calm s (State.returnClaimAt k s c) := by
  unfold State.returnClaimAt
  split
  · split
    · exact calm_claimUnscanned s _ _ (calm_returnFromLoss s _)
    · exact Calm.refl s
  · exact Calm.refl s

theorem calm_takeReadings (s : State) (d : DistrictId) (x : ChannelReport) : Calm s (s.takeReadings d x) := by
  have h : Calm s (s.modDist d (fun y => { y with current := x.current })) := calm_modDist s d _
  unfold State.takeReadings
  dsimp only
  split
  · split
    · split
      · exact h.trans (calm_modEngine _ _ _)
      · exact h
    · split
      · exact h.trans (calm_enter _ d _)
      · exact h
    all_goals exact h
  · exact h

theorem calm_takeChannel (claim : State → DistrictId → (State → State) → State)
    (hc : ∀ s d f, Calm s (f s) → Calm s (claim s d f)) (k : NodeId) (r : Report) (tb : Stamp) (s : State)
    (c : ChannelId) : Calm s (State.takeChannel claim k r tb s c) := by
  unfold State.takeChannel
  split
  · exact Calm.refl s
  · dsimp only
    split
    · exact (hc s _ _ (calm_takeReadings s _ _)).trans (hc _ _ _ (calm_takeCut _ _ _))
    · exact hc s _ _ (calm_takeReadings s _ _)

/-- The node table is changed by a returning node's REPORT at its channel entries alone. -/
theorem State.returnNode_calm (s : State) (k : NodeId) (r : Report) (tb : Stamp) :
    ∃ u : State, Calm s u ∧ Calm (u.storeChannels k r) (s.returnNode k r tb) :=
  ⟨_, calm_foldl _ _ (fun c _ t => calm_returnClaimAt k t c) s,
    (calm_foldl _ _ (fun c _ t => calm_takeChannel _ calm_claimUnscanned k r tb t c) _).trans
      (calm_rescan _ _)⟩

/-! ### Locks and lockouts -/

theorem calm_enterLocked (s : State) (d : DistrictId) : Calm s (s.enterLocked d) := by
  have h : Calm s ((s.depart d).enter d .locked) := (calm_depart s d).trans (calm_enter _ d _)
  unfold State.enterLocked
  dsimp only
  split
  · exact (h.trans (calm_setIntentOff _ d)).trans (calm_mark _ _)
  · exact h

theorem calm_exitLocked (s : State) (d : DistrictId) : Calm s (s.exitLocked d) := by
  unfold State.exitLocked
  split
  · exact Calm.refl s
  · split
    · exact calm_enter s d _
    · split
      · exact calm_enter s d _
      · exact calm_enter s d _

theorem calm_lockClaim (s : State) (d : DistrictId) (f : State → State) (h : ∀ t, Calm t (f t)) :
    Calm s (s.lockClaim d f) := by
  unfold State.lockClaim
  refine Calm.trans ?_ (calm_finish s d _)
  split
  · exact (calm_checkError s d).trans (h _)
  · exact h s

theorem calm_membershipClaim (g : LockHalf) (stored : Word) (d : DistrictId) (s : State) :
    Calm s (State.membershipClaim g stored d s) := by
  unfold State.membershipClaim
  split
  · exact calm_lockClaim s d _ (fun t => calm_enterLocked t d)
  · exact calm_lockClaim s d _ (fun t => calm_exitLocked t d)

/-! ### Reads and corrections -/

theorem calm_checkRead (s : State) (p : IntentPos) : Calm s (s.checkRead p) := by
  unfold State.checkRead
  split
  · split
    · exact calm_raiseCheck s _
    · exact Calm.refl s
  · exact Calm.refl s

/-- What an access checks when it is taken changes nothing but what a check error changes. -/
theorem calm_checkRequest (s : State) (r : Request) : Calm s (s.checkRequest r) := by
  unfold State.checkRequest
  split
  · exact calm_checkRead s _
  · exact Calm.refl s

end Sys2Proof.Machine
end

