-- ==== Sys2Proof/Laws/Memory.lean ====
section
/-! SUPPORT. The static RAM: every write keeps the canonical form, and a byte reads as last written. -/

namespace Sys2Proof.Machine

open Sys2Proof

/-- What the canonical form says of a memory that lists something. -/
theorem Memory.wf_cons {a : Nat} {b : Byte} {m : List Host.Cell} :
    Memory.wf ((a, b) :: m) = true ↔
      b ≠ Memory.unwritten ∧ (∀ c ∈ m, a < c.1) ∧ Memory.wf m = true := by
  simp [Memory.wf, and_assoc]

/-- Every address a write leaves listed was listed before or is the one written. -/
theorem Memory.mem_set {m : List Host.Cell} {a : Nat} {b : Byte} {c : Host.Cell}
    (h : c ∈ Memory.set m a b) : c = (a, b) ∨ c ∈ m := by
  induction m with
  | nil =>
    simp only [Memory.set] at h
    split at h <;> simp_all
  | cons x rest ih =>
    obtain ⟨y, v⟩ := x
    simp only [Memory.set] at h
    split at h
    · split at h <;> simp_all
    · split at h
      · split at h
        · exact Or.inr (List.mem_cons_of_mem _ h)
        · rcases List.mem_cons.mp h with h | h
          · exact Or.inl h
          · exact Or.inr (List.mem_cons_of_mem _ h)
      · rcases List.mem_cons.mp h with h | h
        · exact Or.inr (h ▸ List.mem_cons_self)
        · rcases ih h with h | h
          · exact Or.inl h
          · exact Or.inr (List.mem_cons_of_mem _ h)

/-- A write of one byte keeps the canonical form. -/
theorem Memory.wf_set {m : List Host.Cell} (h : Memory.wf m = true) (a : Nat) (b : Byte) :
    Memory.wf (Memory.set m a b) = true := by
  induction m with
  | nil =>
    simp only [Memory.set]
    split
    · rfl
    · next hb => exact Memory.wf_cons.mpr ⟨hb, by simp, rfl⟩
  | cons x rest ih =>
    obtain ⟨y, v⟩ := x
    obtain ⟨hv, hy, hr⟩ := Memory.wf_cons.mp h
    simp only [Memory.set]
    split
    · next hlt =>
      split
      · exact h
      · next hb =>
        refine Memory.wf_cons.mpr ⟨hb, ?_, h⟩
        intro c hc
        rcases List.mem_cons.mp hc with hc | hc
        · exact hc ▸ hlt
        · exact Nat.lt_trans hlt (hy c hc)
    · next hge =>
      split
      · next heq =>
        split
        · exact hr
        · next hb => exact Memory.wf_cons.mpr ⟨hb, heq ▸ hy, hr⟩
      · next hne =>
        refine Memory.wf_cons.mpr ⟨hv, ?_, ih hr⟩
        intro c hc
        rcases Memory.mem_set hc with hc | hc
        · have : y < a := by omega
          exact hc ▸ this
        · exact hy c hc

/-- A write on the enabled lanes keeps the canonical form. -/
theorem Memory.wf_write {m : List Host.Cell} (h : Memory.wf m = true) (a : WordAddr) (l : Lanes)
    (v : Word) : Memory.wf (Memory.write m a l v) = true := by
  cases l
  · exact Memory.wf_set h _ _
  · exact Memory.wf_set h _ _
  · exact Memory.wf_set (Memory.wf_set h _ _) _ _

/-- An address below every listed one reads as unwritten. -/
theorem Memory.byte_below {m : List Host.Cell} {a : Nat} (h : ∀ c ∈ m, a < c.1) :
    Memory.byte m a = Memory.unwritten := by
  induction m with
  | nil => rfl
  | cons x rest ih =>
    obtain ⟨y, v⟩ := x
    have hy : a < y := h (y, v) List.mem_cons_self
    have : y ≠ a := by omega
    simp only [Memory.byte, if_neg this]
    exact ih (fun c hc => h c (List.mem_cons_of_mem _ hc))

/-- In a canonical memory, the byte written reads back. -/
theorem Memory.byte_set_same {m : List Host.Cell} (h : Memory.wf m = true) (a : Nat) (b : Byte) :
    Memory.byte (Memory.set m a b) a = b := by
  induction m with
  | nil =>
    simp only [Memory.set]
    split
    · next hb => simp [Memory.byte, hb]
    · simp [Memory.byte]
  | cons x rest ih =>
    obtain ⟨y, v⟩ := x
    obtain ⟨hv, hy, hr⟩ := Memory.wf_cons.mp h
    simp only [Memory.set]
    split
    · next hlt =>
      split
      · next hb =>
        rw [hb]
        apply Memory.byte_below
        intro c hc
        rcases List.mem_cons.mp hc with hc | hc
        · exact hc ▸ hlt
        · exact Nat.lt_trans hlt (hy c hc)
      · simp [Memory.byte]
    · split
      · next heq =>
        split
        · next hb =>
          rw [hb]
          exact Memory.byte_below (heq ▸ hy)
        · simp [Memory.byte]
      · next hne =>
        have : y ≠ a := fun e => hne e.symm
        simp only [Memory.byte, if_neg this]
        exact ih hr

/-- Every other byte reads as before. -/
theorem Memory.byte_set_other (m : List Host.Cell) (a : Nat) (b : Byte) (c : Nat) (h : c ≠ a) :
    Memory.byte (Memory.set m a b) c = Memory.byte m c := by
  induction m with
  | nil =>
    simp only [Memory.set]
    split
    · rfl
    · have : a ≠ c := fun e => h e.symm
      simp [Memory.byte, this]
  | cons x rest ih =>
    obtain ⟨y, v⟩ := x
    have hac : a ≠ c := fun e => h e.symm
    simp only [Memory.set]
    split
    · split
      · rfl
      · simp [Memory.byte, hac]
    · split
      · next heq =>
        have hyc : y ≠ c := heq ▸ hac
        split
        · simp [Memory.byte, hyc]
        · simp [Memory.byte, hac, hyc]
      · simp only [Memory.byte]
        split
        · rfl
        · exact ih

/-- A whole word written reads back. -/
theorem Memory.word_write_both {m : List Host.Cell} (h : Memory.wf m = true) (a : WordAddr) (v : Word) :
    Memory.word (Memory.write m a .both v) a = v := by
  have h1 : Memory.wf (Memory.set m (2 * a.toNat) (lowerLane v)) = true := Memory.wf_set h _ _
  have hne : 2 * a.toNat ≠ 2 * a.toNat + 1 := by omega
  simp only [Memory.word, Memory.write]
  rw [Memory.byte_set_same h1, Memory.byte_set_other _ _ _ _ hne, Memory.byte_set_same h]
  simp only [ofLanes, upperLane, lowerLane]
  ext i hi
  simp only [BitVec.getElem_append, BitVec.getElem_extractLsb']
  split
  · simp [BitVec.getLsbD_eq_getElem, hi]
  · next h8 =>
    have e : 8 + (i - 8) = i := by omega
    simp [e, BitVec.getLsbD_eq_getElem, hi]

/-- A byte outside the two of a word reads as before, whichever lanes are written. -/
theorem Memory.byte_write_other (m : List Host.Cell) (a : WordAddr) (l : Lanes) (v : Word) (c : Nat)
    (h0 : c ≠ 2 * a.toNat) (h1 : c ≠ 2 * a.toNat + 1) :
    Memory.byte (Memory.write m a l v) c = Memory.byte m c := by
  cases l
  · exact Memory.byte_set_other _ _ _ _ h0
  · exact Memory.byte_set_other _ _ _ _ h1
  · simp only [Memory.write]
    rw [Memory.byte_set_other _ _ _ _ h1, Memory.byte_set_other _ _ _ _ h0]

/-- Every other word reads as before. -/
theorem Memory.word_write_other (m : List Host.Cell) (a c : WordAddr) (l : Lanes) (v : Word) (h : c ≠ a) :
    Memory.word (Memory.write m a l v) c = Memory.word m c := by
  have hn : c.toNat ≠ a.toNat := fun e => h (BitVec.eq_of_toNat_eq e)
  simp only [Memory.word]
  rw [Memory.byte_write_other _ _ _ _ _ (by omega) (by omega),
    Memory.byte_write_other _ _ _ _ _ (by omega) (by omega)]

end Sys2Proof.Machine
end

