-- ==== Sys2Proof/Laws/Reports.lean ====
section
/-! SUPPORT. The model's tests of a REPORT and a cut, matched with the spec's own terms of them: the district
mapped to a channel, the incidents an entry qualifies for, and the ends of a settle timer. -/

namespace Sys2Proof.Machine

open Sys2Proof

/-! ### The district mapped to a channel -/

theorem State.mappedTo_iff (s : State) (k : NodeId) (c : ChannelId) (d : DistrictId) :
    s.mappedTo k c d = true ↔
      ((s.dist d).invalid = false ∧ (s.dist d).node = some k) ∧ (s.dist d).channel = c := by
  simp [State.mappedTo]

/-- The district alone at a node is the one mapped to its channel. -/
theorem State.mapped_of_alone {s : State} {k : NodeId} {c : ChannelId} {d : DistrictId} (h : AloneAt s k c d) :
    s.mapped k c = some d := by
  have hd : s.mappedTo k c d = true := (s.mappedTo_iff k c d).mpr ⟨(h.2 d).mpr rfl, h.1⟩
  cases hf : s.mapped k c with
  | none =>
    rw [State.mapped, List.find?_eq_none] at hf
    exact absurd hd (hf d (List.mem_finRange d))
  | some e =>
    have he := (s.mappedTo_iff k c e).mp (List.find?_some hf)
    rw [(h.2 e).mp he.1]

/-- No district is mapped to the node's other channels. -/
theorem State.mapped_of_alone_other {s : State} {k : NodeId} {c b : ChannelId} {d : DistrictId}
    (h : AloneAt s k c d) (hb : b ≠ c) : s.mapped k b = .none := by
  rw [State.mapped, List.find?_eq_none]
  intro e _ he
  have he := (s.mappedTo_iff k b e).mp he
  have hd := (h.2 e).mp he.1
  exact hb (he.2.symm.trans (hd ▸ h.1))

/-- The node's districts are that one. -/
theorem State.mem_mappedToNode_of_alone {s : State} {k : NodeId} {c : ChannelId} {d : DistrictId}
    (h : AloneAt s k c d) (e : DistrictId) : e ∈ s.mappedToNode k ↔ e = d := by
  rw [← h.2 e]
  simp [State.mappedToNode]

/-! ### The incidents an entry qualifies for (R33) -/

/-- The distance of R33 is the size of the signed offset. -/
theorem stampDistance_eq (a b : Stamp) :
    stampDistance a b = if (a - b).toNat < 2 ^ 23 then (a - b).toNat else 2 ^ 24 - (a - b).toNat := by
  have h := (a - b).isLt
  simp only [stampDistance, stampOffset, BitVec.toInt_eq_toNat_cond]
  split <;> split <;> omega

/-- The place test against one member: d's feed, or a valid entry that pairs the two. -/
theorem State.near_iff (s : State) (d e : DistrictId) :
    ((s.dist e).feed == (s.dist d).feed || s.adjacent d e) = true ↔
      (s.dist e).feed = (s.dist d).feed ∨ ∃ j : Fin 48, s.adjacency[j].getLsbD 15 = true
        ∧ (field s.adjacency[j] 0 6 = d.val ∧ field s.adjacency[j] 8 6 = e.val
          ∨ field s.adjacency[j] 0 6 = e.val ∧ field s.adjacency[j] 8 6 = d.val) := by
  by_cases hde : d = e
  · subst hde; simp
  · simp [State.adjacent, hde, adjacentValid, namesPair, adjacentA, adjacentB]

theorem State.qualifies_iff (s : State) (d : DistrictId) (a : Stamp) (n : SlotId) :
    s.qualifies d a n = true ↔ Qualifies s d a n := by
  simp only [State.qualifies, Qualifies, Bool.and_eq_true, List.any_eq_true, beq_iff_eq, decide_eq_true_eq,
    State.near_iff, stampDistance_eq, Control.gatheringMicros, and_assoc]

/-! ### Settle timers (R93, R95) -/

/-- The expiry a sag notice has forestalled leaves the feed as it is but for the note of it. -/
theorem State.settleExpires_of_restarted (s : State) (k : FeedId) (h : (s.feed k).state = .settling)
    (ht : (s.feed k).settleTimer.isSome = true) (hr : (s.feed k).settleRestarted = true) :
    s.settleExpires k = s.modFeed k (fun f => { f with settleRestarted := false }) := by
  simp [State.settleExpires, h, ht, hr]

/-- A SETTLING feed whose timer expires goes to UP, and the scan follows. -/
theorem State.settleExpires_of_running (s : State) (k : FeedId) (h : (s.feed k).state = .settling)
    (ht : (s.feed k).settleTimer.isSome = true) (hr : (s.feed k).settleRestarted = false) :
    s.settleExpires k = (s.modFeed k (fun f => { f with state := .up, settleTimer := .none })).scan := by
  simp [State.settleExpires, h, ht, hr]

end Sys2Proof.Machine
end

