-- ==== Sys2Proof/Laws/Scan.lean ====
section
/-! SUPPORT. Check errors, grants and scans of the model matched with the spec's own terms of them. -/

namespace Sys2Proof.Machine

open Sys2Proof

/-! ### Check errors (R22, R81) -/

/-- Freeing the engine of d is what R81 gives. -/
theorem engineFreed_freeEngineOf (s : State) (d : DistrictId) : EngineFreed s (s.freeEngineOf d) d := by
  unfold State.freeEngineOf
  refine ⟨fun h => by simp [h], fun e h => ?_⟩
  simp only [h]
  refine ⟨?_, fun f hf => ?_, ?_, fun k hk => ?_⟩
  · rw [State.freeEngine, State.engine_modEngine_same]; rfl
  · rw [State.freeEngine, State.engine_modEngine_other _ _ _ _ hf]; rfl
  · exact State.feed_modFeed_same s _ (fun f => { f with engaged := f.engaged - 1 })
  · exact State.feed_modFeed_other s _ (fun f => { f with engaged := f.engaged - 1 }) k hk

/-- A mark is removed with the marks of d exactly if it is one of them (R133). -/
theorem State.mem_unmarkDistrict (s : State) (d : DistrictId) (p : IntentPos) :
    p ∈ (s.unmarkDistrict d).corrections ↔ p ∈ s.corrections ∧ ∀ w : Fin 5, p ≠ .district d w := by
  cases p <;> simp [State.unmarkDistrict]

/-- A departure changes the engines, the feeds and the queue alone (R81, R82). -/
theorem State.depart_eq (s : State) (d : DistrictId) :
    s.depart d = { s with
      engines := (s.freeEngineOf d).engines
      feeds := (s.freeEngineOf d).feeds
      queue := s.queue.erase d } := by
  unfold State.depart State.freeEngineOf
  cases s.engineOf d <;> rfl

/-- Two changes of one context are one. -/
theorem State.modDist_modDist (s : State) (d : DistrictId) (f g : District → District) :
    (s.modDist d f).modDist d g = s.modDist d (fun x => g (f x)) := by
  simp [State.modDist, put_put, State.dist]

/-- When a context leaving its state gives up its role (R35). -/
theorem District.dropsRole_iff (x : District) :
    x.dropsRole = true ↔ x.incidentSlot = .none ∧ (x.state = .holdoff ∨ x.state = .reversing) := by
  simp [District.dropsRole]

/-- The check error of the model is the one R22 describes. -/
theorem checkErrorTaken_checkError (s : State) (d : DistrictId) : CheckErrorTaken s (s.checkError d) d := by
  have hc : (s.dist d).state ≠ .locked → s.checkError d =
      ((s.depart d).modDist d (fun x => ({ x.enter s.control .checkHold with
        invalid := true
        reload := 0 } : District).latchCheckError)).unmarkDistrict d := fun h => by
    simp only [State.checkError, if_neg h, State.enter, State.modDist_modDist, State.depart_eq]
  refine ⟨fun p => ?_, fun h => ?_, fun h => ⟨?_, ?_⟩⟩
  · by_cases h : (s.dist d).state = .locked
    · simp [State.checkError, h, State.mem_unmarkDistrict]
    · simp [hc h, State.mem_unmarkDistrict, State.depart_eq]
  · simp [State.checkError, h, State.unmarkDistrict, State.modDist, District.latchCheckError]
  · rw [hc h, State.depart_eq]
    exact engineFreed_freeEngineOf s d
  · rw [hc h, State.depart_eq]
    simp only [State.unmarkDistrict, State.modDist, District.latchCheckError, District.enter,
      District.dropsRole_iff]
    rfl

/-! ### Grants and scans (R69 to R72, R76) -/

/-- The admission test of the model is that of R69. -/
theorem State.admissible_iff_Admissible (s : State) (d : DistrictId) :
    s.admissible d = true ↔ Admissible s d := s.admissible_iff d

/-- What a scan picks is what R70 says it grants. -/
theorem grantsNext_of_scan (s : State) (e : EngineId) (d : DistrictId) (he : s.idleEngine = some e)
    (hd : s.queue.find? s.admissible = some d) : GrantsNext s e d := by
  refine ⟨?_, (s.admissible_iff_Admissible d).mp (List.find?_some hd), ?_⟩
  · obtain ⟨h, i, hi, hg, hf⟩ := List.find?_eq_some_iff_getElem.mp he
    refine ⟨by simpa using h, fun f hlt => ?_⟩
    have hi' : e.val = i := by simpa [indices, Fin.ext_iff] using congrArg Fin.val hg.symm
    have hv : f.val < i := hi' ▸ hlt
    have := hf f.val hv
    simp only [indices, List.getElem_finRange] at this
    intro hn
    simp [hn] at this
  · obtain ⟨-, before, after, hq, hb⟩ := List.find?_eq_some_iff_append.mp hd
    exact ⟨before, after, hq, fun q hm ha => by simpa [(s.admissible_iff_Admissible q).mpr ha] using hb q hm⟩

/-- A scan is over when R70 says so. -/
theorem State.scan_ends (s : State) (k : Nat)
    (h : s.idleEngine = .none ∨ s.queue.find? s.admissible = .none) : scanLoop (k + 1) s = s := by
  rcases h with h | h <;> unfold scanLoop
  · rw [h]
  · rw [h]; cases s.idleEngine <;> rfl

/-- The context of a QUEUED district that enters RAMPING (R7, R71). -/
theorem District.enter_ramping (c : Control) (x : District) (h : x.state = .queued) :
    x.enter c .ramping =
      { x with state := .ramping, holdoffTimer := .none, provingTimer := .none, quietTimer := .none } := by
  simp [District.enter, levelOnEntry, markOnEntry, District.dropsRole, h]

/-- The context of a RAMPING district that enters PROVING (R86). -/
theorem District.enter_proving (c : Control) (x : District) (h : x.state = .ramping) :
    x.enter c .proving = { x with
      state := .proving
      level := 16
      holdoffTimer := .none
      provingTimer := some c.provingMicros
      quietTimer := .none } := by
  simp [District.enter, levelOnEntry, markOnEntry, District.dropsRole, h]

/-- The start of a grant to a QUEUED district is what R71 gives. -/
theorem grantTaken_beginRamp (s : State) (e : EngineId) (d : DistrictId) (h : (s.dist d).state = .queued) :
    GrantTaken s e d (s.beginRamp e d) := by
  have hx := District.enter_ramping s.control (s.dist d) h
  have ht : s.takeEngine e d = { s with
      queue := s.queue.erase d
      engines := put s.engines e
        { district := some d
          feed := (s.dist d).feed
          steps := (s.dist d).steps
          interval := (s.dist d).interval
          ceiling := (s.dist d).ceiling
          index := 1
          stalls := 0
          timer := .none
          reading := .none }
      districts := put s.districts d { s.dist d with
        state := .ramping
        holdoffTimer := .none
        provingTimer := .none
        quietTimer := .none }
      feeds := put s.feeds (s.dist d).feed { s.feed (s.dist d).feed with
        engaged := (s.feed (s.dist d).feed).engaged + 1
        stress := (s.feed (s.dist d).feed).stress + (s.dist d).weight
        history := appendHistory (s.feed (s.dist d).feed).history d } } := by
    rw [← hx]; rfl
  unfold GrantTaken State.beginRamp
  by_cases hn : (s.dist d).steps ≤ 1
  · have hm : ¬2 ≤ (s.dist d).steps := by omega
    rw [if_pos hn, ht]
    simp only [if_neg hm]
    rfl
  · have hm : 2 ≤ (s.dist d).steps := by omega
    rw [if_neg hn, ht]
    simp only [if_pos hm]
    simp only [State.commandStep, State.modEngine, State.modDist, State.engine, State.dist, put_put, get_put_same]
    rfl

/-- The end of a ramp is what R76 and R86 give. -/
theorem rampCompleted_completeRamp (v : State) (e : EngineId) (d : DistrictId) (h : (v.dist d).state = .ramping) :
    RampCompleted v e (v.engine e).feed d (v.completeRamp e d) := by
  have hx := District.enter_proving v.control (v.dist d) h
  have hc : (v.enter d .proving).countAttempt d = { v with
      districts := put v.districts d { v.dist d with
        state := .proving
        level := 16
        attempts :=
          if (v.dist d).mark then min ((v.dist d).attempts + 1) v.control.limit else (v.dist d).attempts
        holdoffTimer := .none
        provingTimer := some v.control.provingMicros
        quietTimer := .none } } := by
    rw [State.countAttempt, State.enter, State.modDist_modDist, State.modDist, hx]
    cases hm : (v.dist d).mark <;> simp [hm]
  rw [RampCompleted, State.completeRamp, hc]
  rfl

/-- A grant to a QUEUED district that no engine holds is what R71, R72 and R76 give, where its notice leaves it
RAMPING on the engine. -/
theorem granted_grant (s : State) (e : EngineId) (d : DistrictId) (h : (s.dist d).state = .queued)
    (he : s.engineOf d = .none)
    (hn : s.passes d → ((s.notify d (s.beginRamp e d)).dist d).state = .ramping
      ∧ ((s.notify d (s.beginRamp e d)).engine e).feed = (s.dist d).feed) :
    Granted s e d (s.grant e d) := by
  refine ⟨fun hc => ?_, fun hc hs => ?_, fun hc hs => ?_⟩
  · have hu := checkErrorTaken_checkError s d
    have hf := (hu.2.2 (by simp [h])).1.1 he
    exact ⟨s.checkError d, hu, hf.1, hf.2, by simp [State.grant, eq_true_of_ne_false hc]⟩
  · have hs' : ¬(s.dist d).steps ≤ 1 := by omega
    exact ⟨s.beginRamp e d, grantTaken_beginRamp s e d h, by simp [State.grant, show s.checkFails d = false from hc, hs']⟩
  · have hr := rampCompleted_completeRamp (s.notify d (s.beginRamp e d)) e d (hn hc).1
    rw [(hn hc).2] at hr
    exact ⟨s.beginRamp e d, _, _, grantTaken_beginRamp s e d h, rfl, hr,
      by simp [State.grant, show s.checkFails d = false from hc, hs]⟩

end Sys2Proof.Machine
end

