-- ==== Sys2Proof/Laws/Views.lean ====
section
/-! SUPPORT. Reading a word of the image: the word an address of the window names, how a live word is served,
and the bits of words and sets built from fields. -/

namespace Sys2Proof.Machine

open Sys2Proof

/-! ### The window -/

/-- An address of the window names the word at its offset in the image (R124). -/
theorem refAt_image (b : Fin 8) (o : Nat) (h : o < 0x1000) :
    refAt b (BitVec.ofNat 19 (windowStart b + o / 2)) = wordAtOffset (o / 2 * 2) := by
  have hb := b.isLt
  have hn : (BitVec.ofNat 19 (windowStart b + o / 2)).toNat = windowStart b + o / 2 := by
    rw [BitVec.toNat_ofNat, Nat.mod_eq_of_lt]
    simp only [windowStart]
    omega
  have hi : inWindow b (BitVec.ofNat 19 (windowStart b + o / 2)) = true := by
    simp only [inWindow, hn, Bool.and_eq_true, decide_eq_true_eq]
    omega
  rw [refAt, if_pos hi, hn, Nat.add_sub_cancel_left]

/-- A read of a live word is served at once with the part's view of it, and nothing else changes (R126). -/
theorem State.beginAccess_live (s : State) (w : LiveWord) (a : WordAddr) (l : Lanes) (ha : s.access = .none)
    (hw : refAt s.windowBase a = .live w) :
    State.beginAccess { addr := a, op := .read, lanes := l } s =
      { s with access := .served { addr := a, op := .read, lanes := l }, readData := onLanes l (s.liveView w) } := by
  simp [State.beginAccess, ha, State.placeAccess, State.checkRequest, State.target, hw, State.needsFace,
    State.serve, State.returnWord]

/-! ### Fields -/

/-- A field of a word given as a number. -/
theorem field_ofNat (n lo len : Nat) (h : n < 2 ^ 16) : field (BitVec.ofNat 16 n) lo len = n / 2 ^ lo % 2 ^ len := by
  rw [field, BitVec.toNat_ofNat, Nat.mod_eq_of_lt h]

/-- A placed value reads as a number below the end of its field. -/
theorem place_lt (lo len v : Nat) : place lo len v < 2 ^ (lo + len) := by
  have h : v % 2 ^ len < 2 ^ len := Nat.mod_lt _ (Nat.two_pow_pos len)
  simp only [place, Nat.pow_add, Nat.mul_comm (2 ^ lo)]
  exact Nat.mul_lt_mul_of_pos_right h (Nat.two_pow_pos lo)

/-! ### Sets -/

theorem getLsbD_addDistrict (x : DistrictSet) (d e : DistrictId) :
    (addDistrict x d).getLsbD e.val = (x.getLsbD e.val || d == e) := by
  have he := e.isLt
  by_cases h : d = e
  · subst h; simp [addDistrict]
  · have hv : e.val ≠ d.val := fun g => h (Fin.ext g.symm)
    simp [addDistrict, h, hv]

/-- The set of a list holds exactly the districts of the list. -/
theorem getLsbD_setOf (l : List DistrictId) (e : DistrictId) : (setOf l).getLsbD e.val = l.contains e := by
  have key : ∀ (l : List DistrictId) (x : DistrictSet),
      (l.foldl addDistrict x).getLsbD e.val = (x.getLsbD e.val || l.contains e) := by
    intro l
    induction l with
    | nil => intro x; simp
    | cons d l ih =>
      intro x
      rw [List.foldl_cons, ih, getLsbD_addDistrict, List.contains_cons, Bool.or_assoc, BEq.comm]
  simpa [setOf] using key l 0

/-- Bit d of a set stands in bit d mod 16 of its half. -/
theorem getLsbD_halfOf (x : DistrictSet) (d : DistrictId) :
    (halfOf (decide (16 ≤ d.val)) x).getLsbD (d.val % 16) = x.getLsbD d.val := by
  have hd := d.isLt
  have hm : d.val % 16 < 16 := Nat.mod_lt _ (by decide)
  by_cases h : 16 ≤ d.val
  · have e : 16 + d.val % 16 = d.val := by omega
    simp [halfOf, h, highHalf, hm, e]
  · have e : d.val % 16 = d.val := by omega
    simp [halfOf, h, lowHalf, e, Nat.lt_of_not_le h]

end Sys2Proof.Machine
end

