-- ==== Sys2Proof/Tests/Slice0.lean ====
section
/-! SUPPORT. The model's own tests: the WellFormed smoke, the layouts and examples of the spec, one step of
each command on a small state, and for each statement of the certificates a state that meets its hypotheses. -/

namespace Sys2Proof.Tests

open Sys2Proof Sys2Proof.Machine

set_option Elab.async false

/-! ### Small states -/

/-- The state after a command (every outcome of this model is a next state). -/
def after (c : Instr) (s : State) : State :=
  match exec c s with
  | .next t => t
  | .fault _ => s
  | .refused _ => s

/-- After reset, with every feed UP and no position marked. -/
def quiet : State :=
  { State.reset with
    corrections := []
    feeds := tabulate 8 (fun _ => { Feed.reset true with state := .up, settleTimer := .none }) }

/-- District 3 mapped to node 1, channel 0, with intent ON, in the given state. -/
def one (st : DistrictState) : State :=
  quiet.modDist 3 (fun x => { x with state := st, words := #v[0x0001, 0x0001, 0x0030, 0x0804, 0x6404] })

/-- The same with node 1 PRESENT. -/
def mapped (st : DistrictState) : State :=
  (one st).modNode 0 (fun x => { x with state := .present })

/-- District 3 RAMPING on engine 0, at step 1 of 8, its mark on. -/
def ramping : State :=
  (((mapped .ramping).modDist 3 (fun x => { x with mark := true, level := 2 })).modEngine 0 (fun x =>
    { x with district := some 3, steps := 8, interval := 4, ceiling := 100, index := 1, timer := some 4000 })).modFeed
    0 (fun f => { f with engaged := 1, stress := 4, history := [3] })

/-- District 3 TRIPPED, the one member of GATHERING slot 0, cut for the given cause. -/
def gathering (c : Cause) : State :=
  ((mapped .tripped).modDist 3 (fun x =>
    { x with incidentSlot := some 0, lastIncident := some 0, lastCause := some c })).modSlot 0 (fun x =>
    { x with
      state := .gathering
      members := [{ district := 3, cause := c, stamp := 0, saturated := false, wasProving := false,
                    withdrawn := false, role := .none }]
      timer := some 4000 })

/-- District 3 with its check code disagreeing with its copy, in the given state. -/
def corrupt (st : DistrictState) : State := (mapped st).modDist 3 (fun x => { x with codeAgrees := false })

/-- An exchange with node 1. -/
def firstExchange : Exchange :=
  { node := 0, timeBase := 0x000120, commands := Vector.replicate 4 (holdOffAt .a) }

/-- That exchange in progress. -/
def polling (s : State) : State := { s with exchange := some firstExchange }

/-- A REPORT whose 22 bytes are given, closed by its check byte. -/
def reportOf (bytes : Vector Byte 22) : Report :=
  { bytes := bytes.push (crc8 bytes.toList), stopBitsValid := true }

/-- Node 1 reports channel 0 CUT on OVERCURRENT with new-cut set, current 60 and age 515 µs. -/
def cutReport : Report :=
  reportOf #v[1, 0, 0x26, 0, 60, 0x03, 0x02, 0, 0, 0, 0, 0, 0, 0, 0, 0, 0, 0, 0, 0, 0, 0]

/-- Node 1 reports a restart. -/
def restartReport : Report :=
  reportOf #v[1, 1, 0, 0, 0, 0, 0, 0, 0, 0, 0, 0, 0, 0, 0, 0, 0, 0, 0, 0, 0, 0]

/-- A two-lane access. -/
def access (a : WordAddr) (op : AccessOp) : Request := { addr := a, op := op, lanes := .both }

/-- A record of members 4 and 9, both restored. -/
def loopRecord : Record :=
  { id := 0, cls := .reverse, origin := 9, count := 2, members := setOf [4, 9], restored := setOf [4, 9],
    lockouts := 0, duration := 0, anySaturated := false, solitaryLoss := false, layoutReset := false,
    missed := 0 }

/-! ### WellFormed -/

theorem test_wellFormed_refuses_codeZero : Instr.wellFormed (.unknownCommandCode 0) = false := by decide
theorem test_wellFormed_refuses_codeLayoutReset : Instr.wellFormed (.unknownCommandCode 0x4C01) = false := by
  decide
theorem test_wellFormed_refuses_codeClearAll : Instr.wellFormed (.unknownCommandCode 0x4C02) = false := by
  decide
theorem test_wellFormed_refuses_codeFreeze : Instr.wellFormed (.unknownCommandCode 0x4C03) = false := by decide
theorem test_wellFormed_accepts_otherCode : Instr.wellFormed (.unknownCommandCode 0x4C04) = true := by decide

/-! ### Layouts and examples of the spec -/

theorem test_every_position_is_its_offset :
    allPositions.all (fun p => wordAtOffset (positionOffset p) == .intent p) = true := by decide +kernel

theorem test_window_of_strap_three :
    addressOf 3 (.district 2 0) = 0x3F920 ∧ inWindow 3 0x3F800 = true ∧ inWindow 3 0x3FFFF = true
      ∧ inWindow 3 0x3F7FF = false ∧ inWindow 3 0x40000 = false := by decide +kernel

theorem test_crc_of_zero : crc8 [0x00] = 0xF3 := by decide +kernel

theorem test_poll_frame :
    ({ node := 1, timeBase := 0xABCDEF
       commands := #v[{ mode := .step, duty := 5, polarity := .b }, { mode := .full, duty := 0, polarity := .a },
         holdOffAt .a, holdOffAt .b] } : Exchange).frame.take 7
      = [0xA2, 0xBC, 0xDE, 0xD5, 0x82, 0x80, 0xC0] := by decide +kernel

theorem test_record_words_of_R176 :
    loopRecord.word 3 = 0x0800 ∧ loopRecord.word 4 = 0x00A0 ∧ loopRecord.word 2 = 0x0100
      ∧ loopRecord.word 0 = 0x4900 := by decide +kernel

theorem test_holdoff_table_of_R18 :
    (List.range 7).map Control.reset.holdoffMicros
      = [1000000, 2000000, 4000000, 8000000, 16000000, 25500000, 25500000] := by decide +kernel

theorem test_duties_of_R75 :
    (List.range 11).map (fun i => stepDuty (i + 1) 12) = [1, 2, 4, 5, 6, 8, 9, 10, 12, 13, 14]
      ∧ [stepDuty 1 3, stepDuty 2 3] = [5, 10] := by decide

theorem test_stamp_distance_wraps : stampDistance 0x000280 0xFFFF1D = 867 := by decide +kernel

theorem test_insertions_of_chapter_four :
    let p : DistrictId → Nat := fun d => if d = 7 then 0 else if d = 14 then 2 else if d = 20 then 3 else 1
    insertAfterLast (fun q => decide (p q ≤ 1)) 25 [7, 3, 11, 14, 20] = [7, 3, 11, 25, 14, 20]
      ∧ insertAfterLast (fun q => decide (p q < 1)) 9 [7, 3, 11, 25, 14, 20] = [7, 9, 3, 11, 25, 14, 20] := by
  decide +kernel

theorem test_stamp_order_of_R40 :
    let m (d : DistrictId) (c : Cause) (t : Stamp) (b : Bool) : Member :=
      { district := d, cause := c, stamp := t, saturated := b, wasProving := false, withdrawn := false, role := .none }
    (inStampOrder 0x3F8000 [m 6 .overcurrent 0x3F8000 false, m 12 .overload 0x3F7C18 false]).map
        Member.district = [12, 6]
      ∧ (inStampOrder 0x3F8000 [m 6 .overcurrent 0x3F8000 false, m 12 .overload 0x3F7C18 true]).map
        Member.district = [6, 12] := by decide +kernel

theorem test_history_keeps_four : appendHistory [18, 16, 17, 17] 16 = [16, 17, 17, 16] := by decide

theorem test_clamps_of_chapter_eight :
    clampDistrictWord 3 0x1400 = 0x1001 ∧ clampDistrictWord 4 0x001F = 0x0110 := by decide +kernel

/-! ### One step of each command -/

theorem test_fullReset : (after (.fullReset { straps := 3, boosters := 0xFE, hold := true }) quiet).windowBase = 3
    ∧ ((after (.fullReset { straps := 3, boosters := 0xFE, hold := true }) quiet).feed 0).state = .down := by
  decide +kernel

theorem test_layoutReset : ((after .layoutReset ramping).dist 3).state = .off
    ∧ (after .layoutReset ramping).corrections = [.district 3 0]
    ∧ ((after .layoutReset ramping).feed 0).stress = 4 := by decide +kernel

theorem test_layoutReset_counts_slot : (after .layoutReset (gathering .overcurrent)).ring.missed = 1 := by
  decide +kernel

theorem test_clearAllLockouts : ((after .clearAllLockouts (one .lockout)).dist 3).state = .off := by decide +kernel

theorem test_lockFreeze : (after .lockFreeze quiet).freeze = true := by decide +kernel

theorem test_unknownCommandCode : (after (.unknownCommandCode 0x1234) quiet).lastCommand = 0x9234 := by
  decide +kernel

theorem test_clearLockout : ((after (.clearLockout 3) (one .lockout)).dist 3).state = .off := by decide +kernel

theorem test_clearLockout_check_error :
    ((after (.clearLockout 3) (corrupt .lockout)).dist 3).state = .checkHold
      ∧ ((after (.clearLockout 3) (corrupt .lockout)).dist 3).invalid = true := by decide +kernel

theorem test_clearFlags : ((after (.clearFlags 3)
    (quiet.modDist 3 District.latchTripped)).dist 3).flags.any = false := by decide +kernel

theorem test_hostIntentWrite_starts_ramp :
    ((after (.hostIntentWrite 3 1 .both) (mapped .off)).dist 3).state = .ramping
      ∧ ((after (.hostIntentWrite 3 1 .both) (mapped .off)).dist 3).level = 2 := by decide +kernel

theorem test_hostIntentWrite_refused_in_lockout :
    ((after (.hostIntentWrite 3 1 .both) (mapped .lockout)).dist 3).words[0] = 0
      ∧ ((after (.hostIntentWrite 3 1 .both) (mapped .lockout)).dist 3).flags.refused = true := by decide +kernel

theorem test_districtWordWrite_clamped :
    ((after (.districtWordWrite 3 2 0x1400 .both) (mapped .off)).dist 3).words[3] = 0x1001 := by decide +kernel

theorem test_districtWordWrite_refused :
    ((after (.districtWordWrite 3 2 0x0806 .both) (mapped .live)).dist 3).words[3] = 0x0804 := by decide +kernel

theorem test_adjacencyWrite_selfPair : (after (.adjacencyWrite 12 0x8404 .both) quiet).adjacency[12] = 0x0404 := by
  decide +kernel

theorem test_feedSettingWrite : ((after (.feedSettingWrite 2 .concurrency 7 .both) quiet).feed 2).concurrency = 4 := by
  decide +kernel

theorem test_controlSettingWrite :
    (after (.controlSettingWrite .provingWindow 1 .both) quiet).control.provingWindow = 5 := by decide +kernel

theorem test_attemptLimitWrite_caps :
    ((after (.attemptLimitWrite 1 .both) (quiet.modDist 3 (fun x => { x with attempts := 3 }))).dist 3).attempts
      = 1 := by decide +kernel

theorem test_faultMaskWrite : (after (.faultMaskWrite 0xFFFF .both) quiet).control.faultMask = 0x001F := by
  decide +kernel

theorem test_ringSettingWrite_aligned :
    (after (.ringSettingWrite .baseLow 0x1237 .both) quiet).control.ringBaseLow = 0x1230
      ∧ (after (.ringSettingWrite .baseLow 0x1237 .both) quiet).corrections = [.control .consumerIndex] := by
  decide +kernel

theorem test_ringSettingWrite_refused_in_window :
    (after (.ringSettingWrite .baseLow 0xF800 .both) quiet).control.ringBaseLow = 0 := by decide +kernel

theorem test_consumerIndexWrite :
    (after (.consumerIndexWrite 2 .both) (quiet.modRing (fun r => { r with producer := 3 }))).control.consumerIndex = 2
      ∧ (after (.consumerIndexWrite 4 .both)
          (quiet.modRing (fun r => { r with producer := 3 }))).control.consumerIndex = 0 := by decide +kernel

theorem test_lockSetWrite_entry :
    ((after (.lockSetWrite .low 0x0008 .both) ramping).dist 3).state = .locked
      ∧ ((after (.lockSetWrite .low 0x0008 .both) ramping).engine 0).district = .none
      ∧ (after (.lockSetWrite .low 0x0008 .both) ramping).corrections = [.district 3 0] := by decide +kernel

theorem test_lockSetWrite_frozen :
    let s := { one .locked with freeze := true, control := { Control.reset with lockSetLow := 0x0008 } }
    (after (.lockSetWrite .low 0 .both) s).control.lockSetLow = 0x0008
      ∧ ((after (.lockSetWrite .low 0 .both) s).dist 3).flags.refused = true := by decide +kernel

theorem test_flagsRead : (after (.flagsRead 3 .lower) (quiet.modDist 3 District.latchRefused)).readData
    = { lower := some 0x02, upper := .none } := by decide +kernel

theorem test_lastResetCauseRead : (after (.lastResetCauseRead .both) quiet).lastResetCause = .none
    ∧ (after (.lastResetCauseRead .both) quiet).readData = { lower := some 1, upper := some 0 } := by decide +kernel

theorem test_hostIntentRead_of_marked :
    (after (.hostIntentRead (.district 3 4) .both) State.reset).readData
      = { lower := some 0x04, upper := some 0x64 } := by decide +kernel

theorem test_hostAccessBegin_forwards_write :
    Memory.word (after (.hostAccessBegin (access 5 (.write 0xABCD))) quiet).mem 5 = 0xABCD := by decide +kernel

theorem test_hostAccessBegin_waits :
    (after (.hostAccessBegin (access 5 .read)) { quiet with face := .ring 0 0 }).waitAsserted = true := by
  decide +kernel

theorem test_hostAccessEnd : (after .hostAccessEnd
    { quiet with face := .host, access := .onFace (access 5 .read) }).face = .idle := by decide +kernel

theorem test_accessDrop : (after .accessDrop
    { quiet with face := .ring 0 0, access := .waiting (access 5 .read) }).access = .none := by decide +kernel

theorem test_correctionWordStart : (after .correctionWordStart State.reset).face
    = .correction (.control .gatheringWindow) 4 := by decide +kernel

theorem test_correctionWordComplete :
    let s := { quiet with face := .correction (.district 3 4) 0x6404, corrections := [.district 3 4] }
    (after .correctionWordComplete s).corrections = []
      ∧ Memory.word (after .correctionWordComplete s).mem (addressOf 0 (.district 3 4)) = 0x6404 := by decide +kernel

theorem test_ringWordStart :
    (after .ringWordStart (quiet.modRing (fun r => { r with records := [loopRecord], missed := 3, producer := 5 }))).face
      = .ring 0x28 0x4900 := by decide +kernel

theorem test_ringWordComplete_last :
    let s := { quiet with
      face := .ring 7 0
      ring := { RingWriter.reset with records := [loopRecord], progress := some 7, producer := 15 } }
    (after .ringWordComplete s).ring.producer = 0 ∧ (after .ringWordComplete s).ring.records = [] := by
  decide +kernel

theorem test_holdAssert : ((after .holdAssert ramping).dist 3).state = .queued
    ∧ ((after .holdAssert ramping).dist 3).mark = true ∧ ((after .holdAssert ramping).feed 0).engaged = 0
    ∧ ((after .holdAssert ramping).dist 3).attempts = 0 := by decide +kernel

theorem test_holdRelease_grants :
    ((after .holdRelease { mapped .queued with hold := true, queue := [3] }).engine 0).district = some 3 := by
  decide +kernel

theorem test_boosterLineLow : ((after (.boosterLineLow 0) ramping).dist 3).state = .queued
    ∧ ((after (.boosterLineLow 0) ramping).feed 0).state = .down
    ∧ (after (.boosterLineLow 0) ramping).queue = [3] := by decide +kernel

theorem test_boosterLineHigh :
    ((after (.boosterLineHigh 0) (after (.boosterLineLow 0) quiet)).feed 0).settleTimer = some 2000000 := by
  decide +kernel

theorem test_settleExpiry : ((after (.settleExpiry 7) State.reset).feed 7).state = .up := by decide +kernel

theorem test_drainExpiry : ((after .drainExpiry ramping).feed 0).stress = 3
    ∧ ((after .drainExpiry ramping).feed 1).stress = 0 := by decide +kernel

/-- A sag notice taken first: the expiry together with it does not happen, and the next one does (R95). -/
theorem test_settleExpiry_after_sagNotice :
    let s := State.sagNotice 7 State.reset
    ((after (.settleExpiry 7) s).feed 7).state = .settling
      ∧ ((after (.settleExpiry 7) (after (.settleExpiry 7) s)).feed 7).state = .up
      ∧ ((after (.settleExpiry 7) s.tick).feed 7).state = .up := by decide +kernel

theorem test_holdoffExpiry_of_solitary :
    ((after (.holdoffExpiry 3)
      ((mapped .holdoff).modDist 3 (fun x => { x with holdoffTimer := some 1, role := .suspect }))).dist 3).state
      = .ramping := by decide +kernel

theorem test_provingExpiry :
    let s := (mapped .proving).modDist 3 (fun x => { x with provingTimer := some 1, mark := true })
    ((after (.provingExpiry 3) s).dist 3).state = .live
      ∧ ((after (.provingExpiry 3) s).dist 3).flags.restored = true := by decide +kernel

theorem test_quietExpiry :
    ((after (.quietExpiry 3)
      ((mapped .live).modDist 3 (fun x => { x with quietTimer := some 1, attempts := 2 }))).dist 3).attempts = 0 := by
  decide +kernel

theorem test_gatheringTimerExpiry_closes :
    let s := (gathering .overcurrent).modSlot 0 (fun x => { x with roundSeen := true })
    ((after (.gatheringTimerExpiry 0) s).slot 0).cls = some .short
      ∧ ((after (.gatheringTimerExpiry 0) s).dist 3).holdoffTimer = some 1000000 := by decide +kernel

theorem test_gatheringTimerExpiry_flips_reversing :
    let s := ((gathering .overcurrent).modSlot 0 (fun x => { x with roundSeen := true })).modDist 3 (fun x =>
      { x with words := #v[0x0001, 0x0001, 0x0130, 0x0804, 0x6404] })
    ((after (.gatheringTimerExpiry 0) s).slot 0).cls = some .reverse
      ∧ ((after (.gatheringTimerExpiry 0) s).dist 3).state = .reversing
      ∧ ((after (.gatheringTimerExpiry 0) s).dist 3).polarity = .b := by decide +kernel

theorem test_stepTimerExpiry_passes :
    ((after (.stepTimerExpiry 0) (ramping.modEngine 0 (fun x => { x with reading := some 60 }))).dist 3).level = 4 := by
  decide +kernel

theorem test_stepTimerExpiry_stall_abort :
    let s := ramping.modEngine 0 (fun x => { x with stalls := 4 })
    ((after (.stepTimerExpiry 0) s).dist 3).state = .tripped ∧ ((after (.stepTimerExpiry 0) s).dist 3).attempts = 1
      ∧ ((after (.stepTimerExpiry 0) s).dist 3).lastCause = some .stall := by decide +kernel

theorem test_poll_commands_step :
    ((after .poll ramping).exchange.map (fun x => x.commands[0])) = some { mode := .step, duty := 2, polarity := .a } := by
  decide +kernel

theorem test_poll_release_hold :
    ((after .poll (ramping.modNode 0 (fun x =>
      { x with channels := Vector.replicate 4 { output := .cut, newCut := false } }))).exchange.map
      (fun x => x.commands[0])) = some (holdOffAt .a) := by decide +kernel

theorem test_report_cut_stamped :
    ((after (.report cutReport) (polling (mapped .live))).slot 0).anchor = 0xFFFF1D
      ∧ ((after (.report cutReport) (polling (mapped .live))).dist 3).state = .tripped
      ∧ ((after (.report cutReport) (polling (mapped .live))).dist 3).current = 60 := by decide +kernel

theorem test_report_restarted_loses_node :
    ((after (.report restartReport) (polling (mapped .live))).node 0).state = .lost
      ∧ ((after (.report restartReport) (polling (mapped .live))).dist 3).state = .unreachable := by decide +kernel

theorem test_missTimeout_third :
    ((after .missTimeout (polling ((mapped .live).modNode 0 (fun x => { x with misses := 2 })))).dist 3).state
      = .unreachable := by decide +kernel

theorem test_missGap_of_absent : ((after .missGap (polling quiet)).node 0).misses = 1
    ∧ (after .missGap (polling quiet)).nextNode = 1 := by decide +kernel

/-- Node 1 comes back with channel 0's new-cut set: district 3, queued by the return, is ramped by the scan that
follows the REPORT, and the cut changes nothing in it (R116). -/
theorem test_report_return_with_cut :
    ((after (.report cutReport) (polling (one .unreachable))).dist 3).state = .ramping
      ∧ ((after (.report cutReport) (polling (one .unreachable))).slot 0).state = .free
      ∧ ((after (.report cutReport) (polling (one .unreachable))).dist 3).current = 60 := by decide +kernel

theorem test_resetHeld : (after .resetHeld { quiet with face := .host, access := .onFace (access 5 .read) }).face = .idle
    ∧ (after .resetHeld quiet).faultAsserted = false := by decide +kernel

theorem test_idle_step_is_a_tick : step quiet = .next quiet.tick := rfl

theorem test_step_takes_the_front : step { quiet with pending := [.poll] } = exec .poll quiet := rfl

/-! ### Witnesses: for each statement with hypotheses, a state and operands that meet them, clause by clause -/

theorem witness_StepRunsFrontCommand : ({ quiet with pending := [.poll] } : State).pending = .poll :: [] := rfl

theorem witness_IdleStepAdvancesOneMicrosecond :
    let s := (quiet.modSlot 0 (fun x => { x with state := .gathering, elapsedMicros := 999 })).modSlot 1 (fun x =>
      { x with state := .recovering, elapsedMicros := 998 })
    s.pending = [] ∧ s.inReset = false ∧ (s.slot 0).state.isOpen = true ∧ (s.slot 0).elapsedMicros = 999
      ∧ (s.slot 1).state.isOpen = true ∧ (s.slot 1).elapsedMicros ≠ 999 ∧ (s.slot 2).state.isOpen = false := by
  decide +kernel

theorem witness_HeldResetTakesNoCommand :
    ({ quiet with inReset := true } : State).inReset = true ∧ (∀ p : Pins, Instr.poll ≠ .fullReset p)
      ∧ Instr.poll ≠ .resetHeld := ⟨rfl, nofun, nofun⟩

theorem witness_LayoutResetRestsEveryContext :
    let s := (mapped .live).modDist 4 (fun x => { x with state := .checkHold, invalid := true })
    s.inReset = false ∧ (s.dist 3).invalid = false ∧ (s.dist 3).intent = .on ∧ (s.dist 4).invalid = true
      ∧ (s.dist 4).state = .checkHold := by decide +kernel

theorem witness_LayoutResetRestsEveryUnit :
    let s := (gathering .stall).modRing (fun r => { r with missed := 255 })
    s.inReset = false ∧ (s.slot 0).state ≠ .free ∧ (s.slot 1).state = .free ∧ s.ring.missed ≤ 255 := by
  decide +kernel

theorem witness_ClearLockoutFreesLockedOutDistrict :
    (one .lockout).inReset = false ∧ (one .lockout).passes 3 ∧ ((one .lockout).dist 3).state = .lockout
      ∧ (one .lockout).passes 4 ∧ ((one .lockout).dist 4).state ≠ .lockout := by decide +kernel

theorem witness_ClearAllLockoutsLeavesNoLockout :
    (one .lockout).inReset = false ∧ (∀ d : DistrictId, (one .lockout).passes d)
      ∧ (∀ d : DistrictId, ((one .lockout).dist d).state = .lockout →
          ((one .lockout).dist d).incidentSlot = .none)
      ∧ ((one .lockout).dist 3).state = .lockout := by decide +kernel

theorem witness_LockFreezeSetsFlagAlone : quiet.inReset = false := rfl

theorem witness_ControlCommandWordTakesCodes :
    quiet.inReset = false ∧ quiet.access = .none ∧ refAt quiet.windowBase 0xF800 = .command
      ∧ (0x4C01 : Word) = mergeLanes .both 0x4C01 0 ∧ (0x4C02 : Word) = mergeLanes .both 0x4C02 0
      ∧ (0x4C03 : Word) = mergeLanes .both 0x4C03 0 ∧ (0 : Word) = mergeLanes .upper 0x0001 0
      ∧ (0x0001 : Word) = mergeLanes .lower 0x4C01 0 := by decide +kernel

theorem witness_ClearFlagsClearsSevenFlags : quiet.inReset = false ∧ quiet.passes 31 := by decide +kernel

theorem witness_HostIntentWriteStoresFilteredWord :
    (mapped .lockout).faceFree ∧ (mapped .lockout).passes 3 ∧ quiet.faceFree ∧ quiet.passes 0 := by decide +kernel

/-- A write that meets a check error: in CHECK_HOLD from every state but LOCKED, the word joins the reload set. -/
theorem witness_HostIntentWriteStoresFilteredWord_check :
    (∀ st ∈ [DistrictState.live, .off, .locked, .holdoff],
      (corrupt st).faceFree ∧ ¬(corrupt st).passes 3 ∧ QueueAgrees (corrupt st))
    ∧ ((after (.hostIntentWrite 3 1 .both) (corrupt .live)).dist 3).state = .checkHold
    ∧ ((after (.hostIntentWrite 3 1 .both) (corrupt .locked)).dist 3).state = .locked
    ∧ ((after (.hostIntentWrite 3 1 .both) (corrupt .live)).dist 3).reload = 0b00001
    ∧ ((after (.hostIntentWrite 3 1 .both) (corrupt .live)).dist 3).intent = .off
    ∧ ((after (.districtWordWrite 3 3 0x6404 .both) (corrupt .live)).dist 3).reload = 0b10000 := by
  unfold QueueAgrees; decide +kernel

theorem witness_HostIntentWriteStartsDistrict :
    (∀ st ∈ [DistrictState.off, .stopped], (mapped st).faceFree ∧ (mapped st).passes 3
      ∧ ((mapped st).dist 3).invalid = false ∧ ((mapped st).dist 3).node = some 0 ∧ ((mapped st).dist 3).state = st
      ∧ mergeLanes .both 1 ((mapped st).dist 3).words[0] &&& 3 = 1
      ∧ mergeLanes .both 2 ((mapped st).dist 3).words[0] &&& 3 = 2)
    ∧ ((mapped .off).node 0).state = .present ∧ ((one .off).node 0).state ≠ .present := by decide +kernel

theorem witness_HostIntentOffStopsDistrict :
    (∀ st ∈ [DistrictState.queued, .ramping, .proving, .live, .reversing, .holdoff, .gated, .stopped],
      (mapped st).faceFree ∧ (mapped st).passes 3 ∧ ((mapped st).dist 3).state = st
        ∧ mergeLanes .lower 0 ((mapped st).dist 3).words[0] &&& 3 = 0 ∧ (mapped st).engineOf 3 = .none)
    ∧ (ramping.dist 3).state = .ramping ∧ ramping.engineOf 3 = some 0 := by decide +kernel

theorem witness_HostIntentWriteOtherwiseKeepsState :
    ((mapped .live).faceFree ∧ (mapped .live).passes 3 ∧ ((mapped .live).dist 3).invalid = false
      ∧ (1 : Word) = mergeLanes .both 1 ((mapped .live).dist 3).words[0] &&& 3
      ∧ ((mapped .live).dist 3).state ≠ .off ∧ ((mapped .live).dist 3).state ≠ .stopped
      ∧ ((mapped .live).dist 3).nodeField ≠ 0)
    ∧ ((2 : Word) = mergeLanes .both 2 ((mapped .stopped).dist 3).words[0] &&& 3
      ∧ (mapped .stopped).passes 3 ∧ ((mapped .stopped).dist 3).state = .stopped
      ∧ ((mapped .stopped).dist 3).nodeField ≠ 0)
    ∧ ((gathering .overload).faceFree ∧ (gathering .overload).passes 3
      ∧ ((gathering .overload).dist 3).state = .tripped
      ∧ ((gathering .overload).dist 3).incidentSlot = some 0
      ∧ (0 : Word) = mergeLanes .both 0 ((gathering .overload).dist 3).words[0] &&& 3
      ∧ (3 : Word) = mergeLanes .both 3 ((gathering .overload).dist 3).words[0] &&& 3) := by decide +kernel

theorem witness_DistrictWordKeptOutsideAcceptingStates :
    ∀ st ∈ [DistrictState.queued, .ramping, .proving, .live, .reversing, .tripped, .holdoff, .gated, .stopped,
        .locked],
      (one st).faceFree ∧ (one st).passes 3 ∧ ((one st).dist 3).invalid = false
        ∧ ((one st).dist 3).state ≠ .off ∧ ((one st).dist 3).state ≠ .lockout
        ∧ ((one st).dist 3).state ≠ .unreachable ∧ ((one st).dist 3).state ≠ .checkHold := by decide +kernel

theorem witness_DistrictWordTestedAndClamped :
    (∀ st ∈ [DistrictState.off, .lockout, .unreachable, .checkHold],
      (one st).faceFree ∧ (one st).passes 3 ∧ ((one st).dist 3).state = st)
    ∧ (9 ≤ field 0x0009 0 4 ∧ 8 ≤ field 0x0008 0 4 ∧ field 0x0008 0 4 < 9)
    ∧ field ((one .off).dist 3).words[1] 0 4 = field 0x0001 0 4
    ∧ field ((one .off).dist 3).words[1] 4 2 = field 0x0001 4 2 ∧ (3 : DistrictId) ≠ 4 := by decide +kernel

theorem witness_MappingChangeJudgesDistrict :
    (∀ st ∈ [DistrictState.off, .lockout, .unreachable],
      (mapped st).faceFree ∧ (mapped st).passes 3 ∧ ((mapped st).dist 3).invalid = false
        ∧ ((mapped st).dist 3).state = st)
    ∧ ((mapped .unreachable).node 0).state = .present ∧ ((mapped .unreachable).node 7).state ≠ .present
    ∧ ((mapped .unreachable).dist 3).intent ≠ .off ∧ (quiet.dist 3).intent = .off := by decide +kernel

theorem witness_MappingChangeJudgesDistrict_words :
    field ((mapped .unreachable).dist 3).words[(1 : Fin 5)] 0 6 = 1
      ∧ (field 0x0000 0 4 = 0 ∧ field 0x0000 0 6 ≠ 1) ∧ (field 0x0031 0 4 = 1 ∧ field 0x0031 0 6 ≠ 1)
      ∧ (field 0x0008 0 4 = 8 ∧ field 0x0008 0 6 ≠ 1) := by decide +kernel

theorem witness_MappingChangeJudgesDistrict_free :
    ∀ e : DistrictId, e ≠ 3 →
      ¬(field ((mapped .unreachable).dist e).words[(1 : Fin 5)] 0 4 = field 0x0008 0 4
        ∧ field ((mapped .unreachable).dist e).words[(1 : Fin 5)] 4 2 = field 0x0008 4 2) := by
  have h : ∀ e : DistrictId, e ≠ 3 →
      ¬field ((mapped .unreachable).dist e).words[(1 : Fin 5)] 0 4 = field 0x0008 0 4 := by decide +kernel
  exact fun e he g => h e he g.1

theorem witness_ReloadCompletesWithFifthWord :
    (∀ st ∈ [DistrictState.checkHold, .locked],
      let s := (one st).modDist 3 (fun x => { x with invalid := true, reload := 0b11110 })
      s.faceFree ∧ (s.dist 3).invalid = true ∧ (s.dist 3).state = st
        ∧ (s.dist 3).reload ||| BitVec.twoPow 5 (0 : Fin 5).val = 0b11111
        ∧ (s.dist 3).reload ||| BitVec.twoPow 5 (4 : Fin 5).val ≠ 0b11111)
    ∧ (4 : Fin 5) = (3 : Fin 4).succ := by decide +kernel

theorem witness_AdjacencyWriteChecksEntry : quiet.faceFree
    ∧ (0x8404 : Word) = mergeLanes .both 0x8404 quiet.adjacency[(47 : Fin 48)] := by decide +kernel

theorem witness_FeedSettingWriteClampsAndScans : quiet.faceFree := by decide +kernel

theorem witness_ControlSettingWriteClamps : quiet.faceFree := by decide +kernel

theorem witness_AttemptLimitWriteCapsCounts : quiet.faceFree := by decide +kernel

theorem witness_RingSettingWriteGuarded_refused :
    quiet.faceFree ∧ (0xF800 : Word) = mergeLanes .both 0xF800 (quiet.control.read (ringReg .baseLow))
      ∧ 0 < (quiet.control.store .ringBaseLow 0xF800).capacity * 8
      ∧ inWindow quiet.windowBase
          (BitVec.ofNat 19 ((quiet.control.store .ringBaseLow 0xF800).ringBase + 0)) = true
      ∧ (quiet.modRing (fun r => { r with producer := 1 })).ring.producer ≠ quiet.control.consumer
      ∧ (quiet.modRing (fun r => { r with progress := some 0 })).ring.progress.isSome = true := by decide +kernel

theorem witness_RingSettingWriteGuarded_taken :
    quiet.ring.producer = quiet.control.consumer ∧ quiet.ring.progress = .none
      ∧ ∀ i < 128, inWindow quiet.windowBase
          (BitVec.ofNat 19 ((quiet.control.store .ringBaseLow 0x1230).ringBase + i)) = false := by decide +kernel

theorem witness_ConsumerIndexWriteGuarded :
    let s := { quiet with
      ring := { RingWriter.reset with producer := 1 }, control := { Control.reset with consumerIndex := 15 } }
    s.faceFree ∧ s.control.consumer < s.control.capacity ∧ s.ring.producer < s.control.capacity
      ∧ (2 ≤ (s.ring.producer + s.control.capacity - s.control.consumer) % s.control.capacity
          ∧ (1 : Word).toNat = (s.control.consumer + 2) % s.control.capacity)
      ∧ ¬∃ i : Nat, i < 3 ∧ (2 : Word).toNat = (s.control.consumer + i) % s.control.capacity := by decide +kernel

theorem witness_LockSetWriteFiltersByFreeze : quiet.faceFree := by decide +kernel

theorem witness_LockSetWriteMovesChangedDistrict :
    (ramping.faceFree ∧ ramping.passes 3 ∧ districtsOf .low (0x0008 ^^^ ramping.control.read (lockReg .low)) = [3]
      ∧ 3 ∈ districtsOf .low 0x0008)
    ∧ (let s := { one .locked with control := { Control.reset with lockSetLow := 0x0008 } }
      s.faceFree ∧ s.passes 3 ∧ (s.dist 3).state = .locked ∧ districtsOf .low (0 ^^^ s.control.read (lockReg .low)) = [3]
        ∧ 3 ∉ districtsOf .low 0 ∧ (s.dist 3).invalid = false ∧ (s.dist 3).node = some 0
        ∧ (s.node 0).state ≠ .present)
    ∧ ((mapped .locked).node 0).state = .present ∧ (quiet.dist 3).node = .none
    ∧ districtsOf .high (0x8000 ^^^ quiet.control.read (lockReg .high)) = [31] := by decide +kernel

theorem witness_FlagsReadReturnsAndClearsFlags : quiet.inReset = false := rfl

theorem witness_LastResetCauseSetByResetsAndClearedByRead :
    quiet.inReset = false ∧ quiet.access = .none ∧ refAt quiet.windowBase 0xF803 = .lastResetCause := by
  decide +kernel

theorem witness_HostIntentReadServedFromCopyOrMemory :
    (State.reset.marked (.district 3 0) = true ∧ State.reset.ofInvalid (.district 3 0) = false
      ∧ State.reset.passes 3)
    ∧ (quiet.marked (.district 3 0) = false ∧ quiet.face = .idle)
    ∧ (({ quiet with face := .ring 0 0 } : State).face ≠ .idle ∧ ({ quiet with face := .ring 0 0 } : State).face ≠ .host
      ∧ ({ quiet with face := .ring 0 0 } : State).access = .none)
    ∧ (let s := { corrupt .live with corrections := [.district 3 0] }
      s.inReset = false ∧ districtOf (.district 3 0) = some 3 ∧ s.marked (.district 3 0) = true ∧ ¬s.passes 3
        ∧ s.face = .idle) := by decide +kernel

theorem witness_HostAccessTakesFaceOrWaits :
    quiet.inReset = false ∧ quiet.access = .none ∧ quiet.face = .idle
      ∧ refAt quiet.windowBase (access 5 .read).addr = .owner
      ∧ refAt quiet.windowBase (access 0xFFFF .read).addr = .owner
      ∧ refAt quiet.windowBase (access 0xF808 (.write 1)).addr = .intent (.control .gatheringWindow)
      ∧ ({ quiet with face := .ring 0 0 } : State).face ≠ .idle
      ∧ ({ quiet with face := .ring 0 0 } : State).face ≠ .host := by decide +kernel

theorem witness_HostAccessTakesFaceOrWaits_read :
    let r := access 0xF930 .read
    let s := { quiet with corrections := [.district 3 0] }
    let c := { corrupt .live with corrections := [.district 3 0] }
    refAt quiet.windowBase r.addr = .intent (.district 3 0) ∧ r.op = .read ∧ districtOf (.district 3 0) = some 3
      ∧ s.marked (.district 3 0) = true ∧ s.ofInvalid (.district 3 0) = false ∧ s.passes 3
      ∧ quiet.marked (.district 3 0) = false ∧ c.marked (.district 3 0) = true ∧ ¬c.passes 3 ∧ c.face = .idle
      ∧ ({ c with face := .ring 0 0 } : State).face ≠ .idle ∧ ({ c with face := .ring 0 0 } : State).face ≠ .host
      ∧ (after (.hostAccessBegin r) s).access = .served r
      ∧ (after (.hostAccessBegin r) { c with face := .ring 0 0 }).access = .waiting r := by decide +kernel

theorem witness_HostAccessServedWithoutFace :
    quiet.inReset = false ∧ quiet.access = .none ∧ refAt quiet.windowBase 0xF802 = .live .status
      ∧ refAt quiet.windowBase (0xFAF8 : WordAddr) = .flags 31
      ∧ refAt quiet.windowBase (0xFAF9 : WordAddr) = .action 31
      ∧ (0x5A01 : Word) = mergeLanes .both 0x5A01 0 ∧ (0x5A02 : Word) = mergeLanes .both 0x5A02 0
      ∧ (0x0001 : Word) = mergeLanes .lower 0x5A01 0 := by decide +kernel

theorem witness_HostAccessServedWithoutFace_words :
    let s := (gathering .stall).modSlot 0 (fun x => { x with origin := some 3 })
    s.inReset = false ∧ s.access = .none ∧ (s.slot 0).state ≠ .free ∧ (s.slot 0).origin = some 3
      ∧ (s.slot 1).state = .free ∧ (s.dist 3).lastIncident = some (0 : Byte) ∧ (s.dist 3).incidentSlot = some 0
      ∧ (s.dist 4).lastIncident = .none
      ∧ ((s.modDist 5 (fun x => { x with lastIncident := some 9 })).dist 5).incidentSlot = .none := by decide +kernel

theorem witness_HostAccessEndsOrIsDropped :
    ({ quiet with access := .onFace (access 5 .read) } : State).access = .onFace (access 5 .read)
      ∧ ({ quiet with access := .served (access 5 .read) } : State).access = .served (access 5 .read)
      ∧ ({ quiet with access := .waiting (access 5 .read) } : State).access = .waiting (access 5 .read)
      ∧ (access 5 .read).op = .read ∧ (access 5 (.write 1)).op = .write 1 ∧ quiet.inReset = false := by decide +kernel

theorem witness_CorrectionWordWritesCopyAndClearsMark_start :
    (State.reset.face = .idle ∧ State.reset.corrections = .control .gatheringWindow :: allPositions.tail
      ∧ (∀ q ∈ allPositions.tail, positionOffset (.control .gatheringWindow) < positionOffset q)
      ∧ districtOf (.control .gatheringWindow) = .none)
    ∧ (let s := { corrupt .live with corrections := [.district 3 0] }
      s.face = .idle ∧ s.corrections = [.district 3 0] ∧ districtOf (.district 3 0) = some 3 ∧ ¬s.passes 3) := by
  decide +kernel

theorem witness_CorrectionWordWritesCopyAndClearsMark_complete :
    (∀ r : Request, ({ quiet with face := .correction (.adjacency 0) 0 } : State).access ≠ .waiting r)
    ∧ ({ quiet with face := .correction (.adjacency 0) 0, access := .waiting (access 5 .read) } : State).access
        = .waiting (access 5 .read)
    ∧ refAt quiet.windowBase (access 5 .read).addr = .owner := ⟨nofun, rfl, by decide +kernel⟩

/-- A correction word of gathering word 0 in flight with an access to the word at offset o of the image waiting,
and district 3's word 0 marked. -/
def waitingAt (o : Nat) (op : AccessOp) (st : State) : State :=
  { st with
    face := .correction (.control .gatheringWindow) 4
    access := .waiting (access (BitVec.ofNat 19 (0xF800 + o / 2)) op)
    corrections := [.control .gatheringWindow, .district 3 0] }

theorem witness_CorrectionWordWritesCopyAndClearsMark_waiting :
    (∀ op ∈ [AccessOp.read, .write 0xABCD],
      refAt (waitingAt 0x260 op quiet).windowBase (BitVec.ofNat 19 (0xF800 + 0x260 / 2)) = .intent (.district 3 0)
        ∧ (after .correctionWordComplete (waitingAt 0x260 op quiet)).waitAsserted = false)
    ∧ ((after .correctionWordComplete (waitingAt 0x260 .read quiet)).access
          = .served (access (BitVec.ofNat 19 (0xF800 + 0x260 / 2)) .read))
    ∧ (¬(waitingAt 0x260 .read (corrupt .live)).passes 3
        ∧ ((after .correctionWordComplete (waitingAt 0x260 .read (corrupt .live))).dist 3).invalid = true)
    ∧ (waitingAt 0x010 .read quiet).marked (.control .gatheringWindow) = true := by decide +kernel

theorem witness_RingWordStartBeginsOrContinuesRecord :
    let s := quiet.modRing (fun r => { r with records := [loopRecord] })
    s.faceFree ∧ s.corrections = [] ∧ s.ring.records = loopRecord :: [] ∧ s.ring.progress = .none
      ∧ (s.ring.producer + 1) % s.control.capacity ≠ s.control.consumer
      ∧ (s.modRing (fun r => { r with progress := some 7 })).ring.progress = some 7
      ∧ ((s.modRing (fun r => { r with producer := 15 })).ring.producer + 1) % s.control.capacity
          = s.control.consumer := by decide +kernel

theorem witness_RingWordCompleteAdvancesProducerAtWordSeven :
    let ring := { RingWriter.reset with
      records := [loopRecord, loopRecord, loopRecord, loopRecord], closing := [0], progress := some 7 }
    let s := { quiet with face := .ring 7 0, ring := ring }
    s.inReset = false ∧ s.face = .ring 7 0 ∧ (∀ r : Request, s.access ≠ .waiting r) ∧ s.ring.progress = some 7
      ∧ s.ring.closing = 0 :: [] ∧ (s.ring.records.drop 1).length < 4 := ⟨rfl, rfl, nofun, rfl, rfl, by decide⟩

theorem witness_RingWordCompleteAdvancesProducerAtWordSeven_waiting :
    let s (o : WordAddr) (op : AccessOp) (base : State) : State := { base with
      face := .ring 7 0
      access := .waiting (access o op)
      ring := { RingWriter.reset with records := [loopRecord], progress := some 3 }
      corrections := [.district 3 0] }
    (s 5 .read quiet).ring.progress = some 3 ∧ refAt quiet.windowBase 5 = .owner
      ∧ refAt quiet.windowBase 0xF930 = .intent (.district 3 0) ∧ (s 0xF930 .read quiet).marked (.district 3 0) = true
      ∧ (s 0xF931 .read quiet).marked (.district 3 1) = false ∧ (s 0xF930 .read quiet).passes 3
      ∧ ¬(s 0xF930 .read (corrupt .live)).passes 3
      ∧ (after .ringWordComplete (s 0xF930 .read quiet)).access = .served (access 0xF930 .read)
      ∧ (after .ringWordComplete (s 5 (.write 1) quiet)).face = .host
      ∧ (after .ringWordComplete (s 5 (.write 1) quiet)).ring.progress = some 4 := by decide +kernel

theorem witness_HoldAssertLeavesNoRampOrFlip : ramping.inReset = false ∧ ramping.hold = false
    ∧ (ramping.dist 3).state = .ramping ∧ ((mapped .proving).dist 3).state = .proving := by decide +kernel

theorem witness_HoldAssertLeavesNoRampOrFlip_alone :
    (∀ e : DistrictId, (ramping.dist e).state = .ramping ∨ (ramping.dist e).state = .reversing ↔ e = 3)
      ∧ ramping.passes 3 ∧ ramping.engineOf 3 = some 0
      ∧ (∀ e : DistrictId, ((mapped .reversing).dist e).state = .ramping
          ∨ ((mapped .reversing).dist e).state = .reversing ↔ e = 3)
      ∧ (mapped .reversing).passes 3
      ∧ ((after .holdAssert (mapped .reversing)).dist 3).mark = true := by decide +kernel

theorem witness_HoldReleaseIsOccasionForScan :
    let s := { mapped .queued with hold := true, queue := [3] }
    s.inReset = false ∧ s.hold = true ∧ s.queue = [3] ∧ (s.dist 3).incidentSlot = .none ∧ s.passes 3
      ∧ (s.feed (s.dist 3).feed).state = .up
      ∧ (s.feed (s.dist 3).feed).engaged < (s.feed (s.dist 3).feed).concurrencyRamps
      ∧ (s.feed (s.dist 3).feed).stress + (s.dist 3).weight ≤ (s.feed (s.dist 3).feed).ceilingUnits
      ∧ 2 ≤ (s.dist 3).steps ∧ (s.engine 0).district = .none
      ∧ (∀ f : EngineId, f < 0 → (s.engine f).district ≠ .none)
      ∧ ∀ d ∈ ({ quiet with hold := true } : State).queue, quiet.admissible d = false := by decide +kernel

/-- Four entries wait for HOLD: 4 on a DOWN feed, 3 with a check error, 5 with one ramp step, 6 with eight. -/
def waitingForHold : State :=
  let x (w2 w3 : Word) (y : District) : District :=
    { y with state := .queued, words := #v[0x0001, 0x0000, w2, w3, 0x6404] }
  let s := ((quiet.modDist 3 (x 0x0030 0x0804)).modDist 4 (x 0x0037 0x0804)).modDist 5 (x 0x0030 0x0104)
  let s := (s.modDist 6 (x 0x0030 0x0804)).modDist 3 (fun y => { y with codeAgrees := false })
  { s.modFeed 7 (fun f => { f with state := .down }) with hold := true, queue := [4, 3, 5, 6] }

theorem witness_HoldReleaseIsOccasionForScan_several :
    let t := after .holdRelease waitingForHold
    RestartAgrees waitingForHold ∧ t.queue = [4] ∧ (t.dist 3).state = .checkHold ∧ (t.dist 5).state = .proving
      ∧ (t.dist 6).state = .ramping ∧ (t.engine 0).district = some 6 ∧ (t.engine 1).district = .none
      ∧ (t.feed 0).engaged = 1 ∧ (t.feed 0).stress = 8 ∧ (t.feed 0).history = [5, 6] := by
  unfold RestartAgrees QueueAgrees EnginesAgree; decide +kernel

theorem witness_BoosterLineMovesItsFeed :
    quiet.inReset = false ∧ quiet.line 7 = true ∧ (quiet.feed 7).state = .up ∧ quiet.onFeedLeaving 7 = []
      ∧ State.reset.line 0 = true ∧ (State.reset.feed 0).state ≠ .up
      ∧ (after (.boosterLineLow 0) quiet).line 0 = false
      ∧ ((after (.boosterLineLow 0) quiet).feed 0).state = .down := by decide +kernel

theorem witness_FeedLossReturnsRampAheadOfPriority :
    ramping.inReset = false ∧ ramping.line 0 = true ∧ (ramping.feed 0).state = .up ∧ ramping.onFeedLeaving 0 = [3]
      ∧ (ramping.dist 3).state = .ramping ∧ ramping.engineOf 3 = some 0 ∧ (ramping.engine 0).feed = 0
      ∧ ramping.passes 3 := by decide +kernel

theorem witness_FeedLossReturnsRampAheadOfPriority_reversing :
    let s := mapped .reversing
    s.inReset = false ∧ s.line 0 = true ∧ (s.feed 0).state = .up ∧ s.onFeedLeaving 0 = [3]
      ∧ (s.dist 3).state = .reversing ∧ (s.dist 3).feed = 0 ∧ s.passes 3
      ∧ ((after (.boosterLineLow 0) s).dist 3).state = .queued ∧ ((after (.boosterLineLow 0) s).dist 3).mark = true
      ∧ (after (.boosterLineLow 0) s).queue = [3] := by decide +kernel

theorem witness_SettleAndDrainExpiriesThenScan :
    State.reset.inReset = false ∧ (State.reset.feed 7).state = .settling
      ∧ (State.reset.feed 7).settleTimer.isSome = true ∧ 0 < (ramping.feed 0).stress
      ∧ (∀ k : FeedId, (quiet.feed k).stress = 0) := by decide +kernel

theorem witness_SettleAndDrainExpiriesThenScan_restarted :
    (State.reset.feed 7).settleRestarted = false
      ∧ ((State.sagNotice 7 State.reset).feed 7).settleRestarted = true
      ∧ ((State.sagNotice 7 State.reset).feed 7).settleTimer.isSome = true
      ∧ ((State.sagNotice 7 State.reset).feed 7).state = .settling := by decide +kernel

/-- A member entry of slot 0's incident. -/
def entry (d : DistrictId) (r : Role) : Member :=
  { district := d, cause := .overcurrent, stamp := 0, saturated := false, wasProving := false, withdrawn := false,
    role := r }

/-- Districts 3 and 9 the SUSPECT members of RECOVERING slot 0, in the given states with their timers
running. -/
def recovering (st other : DistrictState) : State :=
  (((mapped st).modDist 3 (fun x =>
    { x with incidentSlot := some 0, role := .suspect, holdoffTimer := some 0, provingTimer := some 0 })).modDist 9
    (fun x => { x with state := other, incidentSlot := some 0, role := .suspect })).modSlot 0 (fun x =>
    { x with
      state := .recovering
      cls := some .multi
      origin := some 3
      suspects := [3, 9]
      members := [entry 3 .suspect, entry 9 .suspect] })

/-- A RAMPING or PROVING suspect shuts the gate; a GATED or OFF one does not. -/
theorem witness_gate :
    (∀ st ∈ [DistrictState.ramping, .proving], ShutsGate (recovering .holdoff st) (entry 9 .suspect))
    ∧ ¬ShutsGate (recovering .holdoff .gated) (entry 9 .suspect)
    ∧ ¬ShutsGate (recovering .proving .off) (entry 9 .suspect) := by
  unfold ShutsGate; decide +kernel

theorem witness_HoldoffExpiryQueuesOrGatesDistrict :
    let s := (mapped .holdoff).modDist 3 (fun x => { x with holdoffTimer := some 0 })
    s.inReset = false ∧ s.passes 3 ∧ (s.dist 3).state = .holdoff ∧ (s.dist 3).holdoffTimer.isSome = true
      ∧ ¬((s.dist 3).incidentSlot.isSome = true ∧ (s.dist 3).role = .suspect)
      ∧ ((s.modDist 3 (fun x => { x with incidentSlot := some 0, role := .suspect })).dist 3).role = .suspect
      ∧ (s.dist 4).holdoffTimer = .none := by decide +kernel

theorem witness_HoldoffExpiryQueuesOrGatesDistrict_gate :
    let s := recovering .holdoff .ramping
    s.inReset = false ∧ s.passes 3 ∧ (s.dist 3).state = .holdoff ∧ (s.dist 3).holdoffTimer.isSome = true
      ∧ (s.dist 3).incidentSlot = some 0 ∧ (s.dist 3).role = .suspect ∧ (s.slot 0).state = .recovering
      ∧ entry 9 .suspect ∈ (s.slot 0).members ∧ (entry 9 .suspect).district ≠ 3
      ∧ (s.slot 0).suspects = [] ++ 3 :: [9] ∧ (∀ q ∈ ([] : List DistrictId), (s.dist q).state ≠ .gated)
      ∧ ((after (.holdoffExpiry 3) s).dist 3).state = .gated
      ∧ ((after (.holdoffExpiry 3) (recovering .holdoff .gated)).dist 3).state = .ramping
      ∧ ((after (.holdoffExpiry 3) (recovering .holdoff .gated)).dist 9).state = .gated := by decide +kernel

theorem witness_ProvingAndQuietExpiriesSettleDistrict :
    let s := (((mapped .proving).modDist 3 (fun x =>
      { x with provingTimer := some 0, mark := true, incidentSlot := some 0 })).modSlot 0 (fun x =>
      { x with state := .recovering })).modDist 4 (fun x => { x with state := .live, quietTimer := some 0 })
    s.inReset = false ∧ s.passes 3 ∧ (s.dist 3).state = .proving ∧ (s.dist 3).provingTimer.isSome = true
      ∧ (s.dist 3).mark = true ∧ s.openSlotOf 3 = some 0 ∧ s.passes 4 ∧ (s.dist 4).state = .live
      ∧ (s.dist 4).quietTimer.isSome = true ∧ (s.dist 4).mark = false := by decide +kernel

theorem witness_ProvingAndQuietExpiriesSettleDistrict_closes :
    let s := recovering .proving .off
    let u := s.modRing (fun r => { r with records := [loopRecord, loopRecord, loopRecord, loopRecord] })
    s.inReset = false ∧ s.passes 3 ∧ (s.dist 3).state = .proving ∧ (s.dist 3).provingTimer.isSome = true
      ∧ (s.dist 3).incidentSlot = some 0 ∧ (s.slot 0).state = .recovering
      ∧ (∀ m ∈ (s.slot 0).members, m.district ≠ 3 → (s.dist m.district).state.settled = true)
      ∧ (s.slot 0).cls = some .multi ∧ (s.slot 0).origin = some 3 ∧ s.ring.records.length < 4
      ∧ s.ring.closing = [] ∧ 4 ≤ u.ring.records.length
      ∧ ((after (.provingExpiry 3) s).slot 0).state = .free ∧ (after (.provingExpiry 3) s).ring.records.length = 1
      ∧ ((after (.provingExpiry 3) u).slot 0).state = .closing := by decide +kernel

theorem witness_ProvingAndQuietExpiriesSettleDistrict_releases :
    let s := recovering .proving .gated
    (s.dist 9).state = .gated ∧ s.passes 9 ∧ entry 9 .suspect ∈ (s.slot 0).members
      ∧ (s.slot 0).suspects = [3] ++ 9 :: [] ∧ (∀ e ∈ [(3 : DistrictId)], (s.dist e).state ≠ .gated)
      ∧ ((after (.provingExpiry 3) s).dist 3).state = .live
      ∧ ((after (.provingExpiry 3) s).dist 9).mark = true := by decide +kernel

theorem witness_GatheringTimerClosesSlotAfterRound :
    let s := gathering .nodeHeat
    s.inReset = false ∧ (s.slot 0).state = .gathering ∧ (s.slot 0).timer.isSome = true
      ∧ (s.slot 0).roundSeen = false
      ∧ ((s.modSlot 0 (fun x => { x with roundSeen := true })).slot 0).roundSeen = true
      ∧ (s.slot 0).members = [newMember 3 { cause := .nodeHeat, stamp := 0, saturated := false } false]
      ∧ Cause.nodeHeat ≠ .undervoltage ∧ (s.dist 3).state = .tripped ∧ (s.dist 3).reversing = false
      ∧ (s.dist 3).intent = .on ∧ (s.dist 3).attempts ≠ s.control.limit ∧ s.passes 3
      ∧ (s.dist 3).incidentSlot = some 0 := by decide +kernel

/-- GATHERING slot 0, its round seen, with the members given, each TRIPPED; district 3 on feed 0, and the others
as after reset but with the words given. -/
def closing (members : List Member) (words : Vector Word 5) : State :=
  (members.foldl (fun s m => s.modDist m.district (fun x =>
    { x with state := .tripped, incidentSlot := some 0, words := words })) quiet).modSlot 0 (fun x =>
    { x with state := .gathering, members := members, timer := some 4000, roundSeen := true })

/-- The class and the roles that the close of slot 0 fixes. -/
def closed (s : State) : Option IncidentClass × List Role :=
  (((s.enterCloseStates 0).slot 0).cls, ((s.enterCloseStates 0).slot 0).members.map Member.role)

/-- An intent of ON, the given feed and REVERSING word. -/
def onFeed (w : Word) : Vector Word 5 := #v[0x0001, 0x0001, w, 0x0804, 0x6404]

theorem witness_GatheringTimerClosesSlotAfterRound_faults :
    let two := [entry 3 .none, entry 9 .none]
    let s := closing two (onFeed 0x0030)
    let far := s.modDist 9 (fun x => { x with words := onFeed 0x0031 })
    let near := { far with adjacency := put far.adjacency 5 0x8903 }
    let flip := near.modDist 9 (fun x => { x with words := onFeed 0x0131 })
    closed s = (some .multi, [.suspect, .suspect]) ∧ closed near = (some .bridge, [.suspect, .suspect])
      ∧ closed flip = (some .reverse, [.follower, .flip])
      ∧ closed (closing [entry 3 .none] (onFeed 0x0130)) = (some .reverse, [.flip])
      ∧ closed (closing [entry 3 .none] (onFeed 0x0030)) = (some .short, [.suspect]) := by decide +kernel

theorem witness_GatheringTimerClosesSlotAfterRound_bridged :
    let far := (closing [entry 3 .none, entry 9 .none] (onFeed 0x0030)).modDist 9 (fun x =>
      { x with words := onFeed 0x0031 })
    Bridged { far with adjacency := put far.adjacency 5 0x8903 } 3 9 ∧ ¬Bridged far 3 9 := by
  unfold Bridged; decide +kernel

theorem witness_GatheringTimerClosesSlotAfterRound_sags :
    let low (d : DistrictId) (p : Bool) : Member := { entry d .none with cause := .undervoltage, wasProving := p }
    let s := closing [low 3 false, low 9 true, low 11 true] (onFeed 0x0030)
    let h := s.modFeed 0 (fun f => { f with history := [9, 3] })
    Sagged h (h.slot 0).members 0 ∧ closed h = (some .feedSag, [.follower, .suspect, .follower])
      ∧ closed (closing [low 3 true, low 9 false] (onFeed 0x0030)) = (some .undervolt, [.follower, .follower])
      ∧ closed (closing [{ entry 3 .none with withdrawn := true }] (onFeed 0x0030)) = (some .undervolt, [.none]) := by
  unfold Sagged; decide +kernel

theorem witness_Blamed :
    let low (d : DistrictId) (p : Bool) : Member := { entry d .none with cause := .undervoltage, wasProving := p }
    let s := (closing [low 3 false, low 9 true, low 11 true] (onFeed 0x0030)).modFeed 0 (fun f =>
      { f with history := [9, 3] })
    Blamed s (s.slot 0).members 9 := by
  refine ⟨0, [], [3], ?_, ?_, ?_, ?_⟩
  · unfold Sagged; decide +kernel
  · decide +kernel
  · rfl
  · decide +kernel

/-- District 3 ramps on feed 0, which the undervoltage members 9 and 11 sag at the close. -/
theorem witness_GatheringTimerClosesSlotAfterRound_sagNotice :
    let low (d : DistrictId) : Member := { entry d .none with cause := .undervoltage }
    let l := [low 9, low 11, low 12]
    let s := (closing l (onFeed 0x0030)).modDist 3 (fun x => { x with state := .ramping, level := 2, mark := true })
    let s := (s.modEngine 0 (fun x => { x with district := some 3, steps := 8, interval := 4, timer := some 4000 })).modFeed
      0 (fun f => { f with engaged := 1 })
    RestartAgrees s ∧ Sagged s l 0 ∧ ¬Sagged s l 1 ∧ (closed s).1 = some .feedSag ∧ (s.feed 0).state = .up ∧ s.passes 3
      ∧ (s.dist 3).feed = 0 ∧ (s.engine 0).district = some 3 ∧ (s.engine 0).feed = 0
      ∧ ((after (.gatheringTimerExpiry 0) s).dist 3).state = .queued
      ∧ ((after (.gatheringTimerExpiry 0) s).feed 0).state = .settling := by
  unfold RestartAgrees QueueAgrees EnginesAgree Sagged; decide +kernel

/-- The state that district 3, alone in slot 0, enters at the close. -/
def closeState (s : State) : DistrictState := ((s.enterCloseStates 0).dist 3).state

theorem witness_GatheringTimerClosesSlotAfterRound_states :
    let s := closing [entry 3 .none] (onFeed 0x0030)
    let reversing := closing [entry 3 .none] (onFeed 0x0130)
    closeState s = .holdoff ∧ closeState (closing [{ entry 3 .none with withdrawn := true }] (onFeed 0x0030)) = .off
      ∧ closeState (closing [entry 3 .none] #v[0x0002, 0x0001, 0x0030, 0x0804, 0x6404]) = .stopped
      ∧ closeState (s.modDist 3 (fun x => { x with attempts := 3 })) = .lockout
      ∧ closeState reversing = .reversing ∧ closeState { reversing with hold := true } = .queued
      ∧ closeState (s.modDist 3 (fun x => { x with codeAgrees := false })) = .checkHold
      ∧ closeState (s.modDist 3 (fun x => { x with state := .unreachable })) = .unreachable := by decide +kernel

theorem witness_GatheringTimerClosesSlotAfterRound_settled :
    let s := (closing [entry 3 .none] (onFeed 0x0030)).modDist 3 (fun x => { x with attempts := 3 })
    (∀ m ∈ ((s.enterCloseStates 0).slot 0).members, ((s.enterCloseStates 0).dist m.district).state.settled = true)
      ∧ ((after (.gatheringTimerExpiry 0) s).slot 0).state = .free := by decide +kernel

theorem witness_StampBefore :
    StampBefore 0 (entry 3 .none) (entry 9 .none) ∧ ¬StampBefore 0 (entry 9 .none) (entry 3 .none) := by
  unfold StampBefore; decide +kernel

theorem witness_StepTimerPassesOrStallsStep :
    let s := ramping.modEngine 0 (fun x => { x with reading := some 100 })
    s.inReset = false ∧ (s.engine 0).district = some 3 ∧ (s.engine 0).timer.isSome = true
      ∧ (s.engine 0).reading = some (100 : Byte) ∧ (100 : Byte).toNat ≤ (s.engine 0).ceiling
      ∧ (s.engine 0).index + 1 < (s.engine 0).steps ∧ (ramping.engine 0).reading = .none
      ∧ (ramping.engine 0).stalls < 4 := by decide +kernel

theorem witness_StepTimerCompletesOrAbortsRamp :
    let s := ramping.modEngine 0 (fun x => { x with reading := some 100, index := 7 })
    let u := ramping.modEngine 0 (fun x => { x with stalls := 4 })
    s.inReset = false ∧ (s.engine 0).district = some 3 ∧ (s.engine 0).timer.isSome = true
      ∧ (s.dist 3).state = .ramping ∧ s.passes 3 ∧ (∀ f : EngineId, f ≠ 0 → (s.engine f).district ≠ some 3)
      ∧ (s.engine 0).reading = some (100 : Byte) ∧ (100 : Byte).toNat ≤ (s.engine 0).ceiling
      ∧ (s.engine 0).steps ≤ (s.engine 0).index + 1 ∧ (u.engine 0).reading = .none ∧ (u.engine 0).stalls = 4
      ∧ (u.dist 3).incidentSlot = .none ∧ (∀ m : SlotId, (u.slot m).state ≠ .gathering)
      ∧ (u.slot 0).state = .free ∧ (∀ m : SlotId, m < 0 → (u.slot m).state ≠ .free) := by decide +kernel

theorem witness_PollCommandsFollowDistrictStates :
    ramping.inReset = false ∧ ramping.exchange = .none ∧ (∀ d : DistrictId, ramping.passes d)
      ∧ ((after .poll ramping).exchange.map (fun x => decide (x.commands[0].mode = .holdOff))) = some false
      ∧ (∀ d : DistrictId, ¬((ramping.dist d).invalid = false ∧ (ramping.dist d).node = some ramping.nextNode
          ∧ (ramping.dist d).channel = 3)) := by decide +kernel

/-- The command that POLL sends in channel 0, for district 3 alone mapped there. -/
def sent (s : State) : Option ChannelCommand := (after .poll s).exchange.map (fun x => x.commands[0])

theorem witness_PollCommandsFollowDistrictStates_own :
    let full := (mapped .live).modDist 3 (fun x => { x with level := 16, polarity := .b })
    let held := full.modNode 0 (fun x => { x with channels := Vector.replicate 4 { output := .on, newCut := true } })
    (full.dist 3).invalid = false ∧ (full.dist 3).node = some full.nextNode ∧ (full.dist 3).channel = 0
      ∧ (∀ e : DistrictId, e ≠ 3 → (full.dist e).node ≠ some full.nextNode) ∧ full.passes 3
      ∧ (full.node 0).state = .present ∧ (full.channel 0 0).output ≠ .cut ∧ (full.channel 0 0).newCut = false
      ∧ sent full = some { mode := .full, duty := 0, polarity := .b } ∧ sent held = some (holdOffAt .b)
      ∧ sent ((one .live).modDist 3 (fun x => { x with level := 16 })) = some (holdOffAt .a)
      ∧ sent ((mapped .off).modDist 3 (fun x => { x with polarity := .b })) = some (holdOffAt .b) := by decide +kernel

theorem witness_PollCommandsFollowDistrictStates_check :
    (∀ e : DistrictId, e ≠ 3 → (corrupt .live).passes e) ∧ ¬(corrupt .live).passes 3
      ∧ sent (corrupt .live) = some (holdOffAt .a) ∧ (corrupt .live).queue.Nodup
      ∧ ((after .poll (corrupt .live)).dist 3).state = .checkHold
      ∧ ((after .poll (corrupt .locked)).dist 3).state = .locked := by decide +kernel

theorem witness_PollCommandsFollowDistrictStates_round :
    let s := gathering .overcurrent
    s.nextNode = 0 ∧ (∀ d : DistrictId, s.passes d) ∧ (s.slot 0).state = .gathering
      ∧ ((after .poll s).slot 0).roundBegun = true ∧ ((after .poll s).slot 1).roundBegun = false := by decide +kernel

theorem witness_GoodReportEntersNodeTable :
    (polling quiet).inReset = false ∧ (polling quiet).exchange.isSome = true ∧ goodReport cutReport 0 = true
      ∧ reportRestarted cutReport = false ∧ goodReport restartReport 0 = true
      ∧ reportRestarted restartReport = true ∧ goodReport cutReport 1 = false := by decide +kernel

/-- Node 1 reports channel 0 ON at polarity A, current 50. -/
def onReport : Report :=
  reportOf #v[1, 0, 0x01, 0, 50, 0, 0, 0, 0, 0, 0, 0, 0, 0, 0, 0, 0, 0, 0, 0, 0, 0]

theorem witness_GoodAnswer :
    GoodAnswer (polling quiet) firstExchange cutReport ∧ GoodAnswer (polling quiet) firstExchange onReport := by
  unfold GoodAnswer; decide +kernel

theorem witness_AloneAt :
    AloneAt (polling (mapped .live)) 0 0 3 ∧ AloneAt (polling (one .unreachable)) 0 0 3 := by
  unfold AloneAt; decide +kernel

theorem witness_GoodReportEntersNodeTable_readings :
    let ramp := polling (ramping.modDist 3 (fun x => { x with polled := true }))
    let flip := polling ((mapped .reversing).modDist 3 (fun x => { x with polled := true }))
    (ramp.node 0).state = .present ∧ ramp.passes 3 ∧ (reportChannel onReport 0).newCut = false
      ∧ (ramp.dist 3).polled = true ∧ ramp.engineOf 3 = some 0 ∧ (flip.dist 3).polled = true
      ∧ (reportChannel onReport 0).output = .on ∧ (reportChannel onReport 0).polarity = (flip.dist 3).polarity
      ∧ ((after (.report onReport) ramp).engine 0).reading = some (50 : Byte)
      ∧ ((after (.report onReport) flip).dist 3).state = .proving
      ∧ ((after (.report onReport) (polling (mapped .reversing))).dist 3).state = .reversing := by decide +kernel

theorem witness_GoodReportEntersNodeTable_return :
    let on := polling (one .unreachable)
    let off := on.modDist 3 (fun x => { x with words := x.words.set 0 0 })
    QueueAgrees off ∧ (on.node 0).state ≠ .present ∧ on.passes 3 ∧ (on.dist 3).state = .unreachable ∧ (on.dist 3).intent ≠ .off
      ∧ (off.dist 3).intent = .off ∧ (on.dist 3).incidentSlot = .none
      ∧ ((after (.report onReport) off).dist 3).state = .off
      ∧ (after (.report onReport) { on with hold := true }).queue = [3] := by
  unfold QueueAgrees; decide +kernel

theorem witness_ReportedCutOpensSlot :
    let s := polling (mapped .live)
    (s.node 0).state = .present ∧ s.passes 3 ∧ (reportChannel cutReport 0).newCut = true
      ∧ (s.dist 3).incidentSlot = .none ∧ (s.slot 0).state = .free
      ∧ (∀ m : SlotId, m < 0 → (s.slot m).state ≠ .free) ∧ (∀ m : SlotId, (s.slot m).state ≠ .gathering)
      ∧ (after (.report cutReport) (polling (mapped .off))).slots = quiet.slots := by decide +kernel

/-- Slot 1 gathering around district 9 of feed 0, anchored at time 0. -/
def gatheringElsewhere (s : State) : State :=
  s.modSlot 1 (fun x => { x with state := .gathering, id := 5, members := [entry 9 .none], timer := some 100 })

theorem witness_ReportedCutOpensSlot_joins :
    Joins (gatheringElsewhere (polling (mapped .live))) 3 0xFFFF1D 1
      ∧ ((after (.report cutReport) (gatheringElsewhere (polling (mapped .live)))).dist 3).incidentSlot
        = some (1 : SlotId) := by
  unfold Joins Qualifies; decide +kernel

/-- Every slot CLOSING. -/
def noneFree (s : State) : State := { s with slots := tabulate 4 (fun _ => { Slot.blank with state := .closing }) }

theorem witness_ReportedCutOpensSlot_solitary :
    let s := noneFree (polling (mapped .live))
    let flip := s.modDist 3 (fun x => { x with words := onFeed 0x0130 })
    let cut (s : State) : District := (after (.report cutReport) s).dist 3
    (∀ k : SlotId, (s.slot k).state ≠ .free ∧ (s.slot k).state ≠ .gathering)
      ∧ (cut s).state = .holdoff ∧ (cut s).role = .suspect ∧ (after (.report cutReport) s).ring.missed = 1
      ∧ (cut flip).state = .reversing ∧ (cut { flip with hold := true }).state = .queued
      ∧ (cut (s.modDist 3 (fun x => { x with attempts := 3 }))).state = .lockout
      ∧ (cut (s.modDist 3 (fun x => { x with words := x.words.set 0 2 }))).state = .stopped := by decide +kernel

theorem witness_ReportedCutOpensSlot_member :
    let further := polling (gathering .undervoltage)
    let back := further.modDist 3 (fun x => { x with state := .live })
    let again := polling ((recovering .live .holdoff).modDist 3 (fun x => { x with role := .follower }))
    let cut (s : State) : District := (after (.report cutReport) s).dist 3
    Cause.undervoltage.priority < (reportChannel cutReport 0).cause.priority
      ∧ (further.slot 0).state = .gathering ∧ (further.dist 3).incidentSlot = some 0
      ∧ (cut further).lastCause = some .overcurrent ∧ (cut back).state = .tripped
      ∧ (polling (gathering .overcurrent)).passes 3 ∧ (again.slot 0).state = .recovering
      ∧ (cut again).state = .holdoff ∧ ((after (.report cutReport) again).slot 0).suspects = [9, 3]
      ∧ (cut (again.modDist 3 (fun x => { x with attempts := 3 }))).state = .lockout
      ∧ (cut (again.modDist 3 (fun x => { x with state := .off }))).state = .off := by decide +kernel

theorem witness_MissCountsTowardsNodeLoss :
    let s := polling ((mapped .live).modNode 0 (fun x => { x with misses := 2 }))
    s.inReset = false ∧ s.exchange.map Exchange.node = some 0 ∧ (s.node 0).state = .present
      ∧ 2 ≤ (s.node 0).misses ∧ s.mappedToNode 0 = [3] ∧ s.passes 3 ∧ (s.dist 3).state ≠ .unreachable
      ∧ (s.dist 3).state ≠ .locked ∧ (s.dist 3).state ≠ .checkHold
      ∧ ((mapped .live).node 0).misses < 2 ∧ (quiet.node 0).state = .absent
      ∧ ((quiet.modNode 0 (fun x => { x with state := .lost })).node 0).state = .lost := by decide +kernel

/-- The exchange with address 8 in progress. -/
def lastExchange (s : State) : State := { s with exchange := some { firstExchange with node := 7 } }

theorem witness_MissCountsTowardsNodeLoss_round :
    let s := lastExchange ((gathering .overcurrent).modSlot 0 (fun x => { x with roundBegun := true }))
    let late := s.modSlot 0 (fun x => { x with timer := .none })
    s.inReset = false ∧ (∀ d : DistrictId, (s.dist d).node ≠ some 7) ∧ (s.slot 0).state = .gathering
      ∧ ((after .missGap s).slot 0).roundSeen = true ∧ ((after .missGap s).slot 0).state = .gathering
      ∧ ((after .missGap late).slot 0).state = .recovering
      ∧ ((after (.report cutReport) late).slot 0).state = .recovering := by decide +kernel

theorem witness_FaultFollowsFiveConditionsAndMask : (one .lockout).inReset = false
    ∧ (one .lockout).faultAsserted = true ∧ quiet.faultAsserted = false := by decide +kernel

theorem witness_StepKeepsMemoryCanonical :
    MemoryCanonical (after (.hostAccessBegin (access 5 (.write 0xABCD))) quiet)
      ∧ step quiet = .next quiet.tick := ⟨by unfold MemoryCanonical; decide +kernel, rfl⟩

theorem witness_StepKeepsFeedsAndCountsInRange :
    LinesAgree ramping ∧ StressBounded ramping ∧ AttemptsWithinLimit ramping ∧ step ramping = .next ramping.tick :=
  ⟨by unfold LinesAgree; decide +kernel, by unfold StressBounded; decide +kernel,
    by unfold AttemptsWithinLimit; decide +kernel, rfl⟩

theorem witness_StepKeepsQueueAndEnginesAgreeing : RestartAgrees ramping ∧ step ramping = .next ramping.tick :=
  ⟨by unfold RestartAgrees QueueAgrees EnginesAgree; decide +kernel, rfl⟩

theorem witness_StepUnderFreezeKeepsLockedSet :
    ({ quiet with freeze := true } : State).freeze = true
      ∧ (∀ (p : Pins) (rest : List Instr), ({ quiet with freeze := true } : State).pending ≠ .fullReset p :: rest) :=
  ⟨rfl, nofun⟩

theorem witness_StepKeepsMarksInOrder :
    MarksInOrder { quiet with corrections := [.control .consumerIndex, .district 3 0] } := by
  unfold MarksInOrder; decide +kernel

theorem witness_StepKeepsAccessAndFaceAgreeing :
    PathAgrees { quiet with face := .ring 0 0, access := .waiting (access 5 .read) } :=
  ⟨fun _ => ⟨nofun, nofun⟩, ⟨nofun, fun h => nomatch h⟩⟩

theorem witness_StepKeepsLockedDistrictsInLockSet :
    let s := { one .locked with control := { Control.reset with lockSetLow := 0x0008 } }
    RestartAgrees s ∧ LocksAgree s :=
  ⟨by unfold RestartAgrees QueueAgrees EnginesAgree; decide +kernel, by unfold LocksAgree; decide +kernel⟩

end Sys2Proof.Tests
end

section
/-! SUPPORT. Rules of the state operations that the district statements rest on: entries to a state, the
place of a normal entry in the restart queue, departures, the filter of word 0, and stored words. -/

namespace Sys2Proof.Machine

open Sys2Proof

/-! ### Replacements of contexts -/

/-- A context replaced by itself leaves the state. -/
theorem State.modDist_self (s : State) (d : DistrictId) (f : District → District) (h : f (s.dist d) = s.dist d) :
    s.modDist d f = s := by
  rw [State.modDist, h, State.dist, put_self]

theorem State.modDist_congr (s : State) (d : DistrictId) {f g : District → District}
    (h : f (s.dist d) = g (s.dist d)) : s.modDist d f = s.modDist d g := by
  rw [State.modDist, State.modDist, h]

/-- Every context replaced at once. -/
@[simp] theorem State.dist_tabulate (s : State) (f : DistrictId → District) (d : DistrictId) :
    State.dist { s with districts := tabulate 32 f } d = f d := by
  simp only [State.dist, get_tabulate]

/-! ### Entering a state, one equation per state (R5, R7, R9, R35) -/

theorem District.enter_off (c : Control) (x : District) : x.enter c .off =
    { x with
      state := .off
      level := 0
      mark := false
      role := if x.dropsRole then .none else x.role
      holdoffTimer := .none
      provingTimer := .none
      quietTimer := .none } := rfl

theorem District.enter_gated (c : Control) (x : District) : x.enter c .gated =
    { x with
      state := .gated
      level := 0
      mark := false
      role := if x.dropsRole then .none else x.role
      holdoffTimer := .none
      provingTimer := .none
      quietTimer := .none } := rfl

/-- QUEUED keeps the recovery mark: its entries set it first (R7). -/
theorem District.enter_queued (c : Control) (x : District) : x.enter c .queued =
    { x with
      state := .queued
      level := 0
      role := if x.dropsRole then .none else x.role
      holdoffTimer := .none
      provingTimer := .none
      quietTimer := .none } := rfl

/-! ### A normal entry to the restart queue (R65) -/

/-- The place of an insertion: no entry behind it satisfies P, and the one before it, if any, does. -/
theorem insertAfterLast_place (P : DistrictId → Bool) (d : DistrictId) (q : List DistrictId) :
    ∃ before after : List DistrictId, q = before ++ after ∧ insertAfterLast P d q = before ++ d :: after
      ∧ (∀ x ∈ after, P x = false) ∧ ∀ x ∈ before.getLast?, P x = true := by
  refine ⟨q.take (placeAfterLast P q), q.drop (placeAfterLast P q), (List.take_append_drop _ _).symm, rfl, ?_,
    ?_⟩
  · intro x hx
    rw [placeAfterLast, ← List.mem_reverse, ← List.take_reverse] at hx
    obtain ⟨i, hi, rfl⟩ := List.mem_take_iff_getElem.mp hx
    simpa using List.not_of_lt_findIdx (show i < q.reverse.findIdx P by omega)
  · intro x hx
    rw [placeAfterLast, List.getLast?_eq_head?_reverse, ← List.drop_reverse, List.head?_drop] at hx
    obtain ⟨hi, rfl⟩ := List.getElem?_eq_some_iff.mp hx
    exact List.findIdx_getElem

theorem State.priority_modDist (s : State) (d q : DistrictId) (f : District → District)
    (hf : (f (s.dist d)).words = (s.dist d).words) :
    ((s.modDist d f).dist q).priority = (s.dist q).priority := by
  rw [State.dist_modDist]
  split
  · next h => subst h; simp only [District.priority, hf]
  · rfl

/-- A normal entry: d's context enters QUEUED with the mark given, and d stands at its place in the queue. -/
theorem State.enterQueued_place (s : State) (d : DistrictId) (recovering : Bool) :
    ∃ before after : List DistrictId, NormalPlace s d before after
      ∧ s.enterQueued d recovering =
        { s.modDist d (fun x => ({ x with mark := recovering } : District).enter s.control .queued) with
          queue := before ++ d :: after } := by
  obtain ⟨before, after, hq, hi, ha, hb⟩ :=
    insertAfterLast_place (fun q => decide ((s.dist q).priority ≤ (s.dist d).priority)) d s.queue
  refine ⟨before, after, ⟨hq, fun q hm => by simpa using ha q hm, fun q hm => by simpa using hb q hm⟩, ?_⟩
  have hm : (s.modDist d (fun x => { x with mark := recovering })).enter d .queued =
      s.modDist d (fun x => ({ x with mark := recovering } : District).enter s.control .queued) :=
    State.modDist_modDist s d _ _
  rw [State.enterQueued, hm, ← hi]
  simp only [State.insertNormal, State.modDist_queue]
  congr 2
  funext q
  rw [State.priority_modDist _ _ _ _ rfl, State.priority_modDist _ _ _ _ rfl]

theorem State.dist_enterQueued_same (s : State) (d : DistrictId) (recovering : Bool) :
    (s.enterQueued d recovering).dist d =
      ({ s.dist d with mark := recovering } : District).enter s.control .queued := by
  have h : (s.enterQueued d recovering).dist d =
    ((s.modDist d (fun x => { x with mark := recovering })).enter d .queued).dist d := rfl
  rw [h, State.dist_enter_same, State.dist_modDist_same, State.modDist_control]

theorem State.dist_enterQueued_other (s : State) (d e : DistrictId) (recovering : Bool) (h : e ≠ d) :
    (s.enterQueued d recovering).dist e = s.dist e := by
  have hx : (s.enterQueued d recovering).dist e =
    ((s.modDist d (fun x => { x with mark := recovering })).enter d .queued).dist e := rfl
  rw [hx, State.dist_enter_other _ _ _ _ h, State.dist_modDist_other _ _ _ _ h]

/-! ### Departures (R13, R81, R82) -/

@[simp] theorem State.dist_depart (s : State) (d e : DistrictId) : (s.depart d).dist e = s.dist e := by
  rw [State.depart_eq]; rfl

@[simp] theorem State.queue_depart (s : State) (d : DistrictId) : (s.depart d).queue = s.queue.erase d := by
  rw [State.depart_eq]

@[simp] theorem State.slots_depart (s : State) (d : DistrictId) : (s.depart d).slots = s.slots := by
  rw [State.depart_eq]

/-- What R81 says depends on the engines and the feeds alone. -/
theorem EngineFreed.congr {u u' t t' : State} {d : DistrictId} (h : EngineFreed u t d)
    (hue : u'.engines = u.engines) (huf : u'.feeds = u.feeds) (hte : t'.engines = t.engines)
    (htf : t'.feeds = t.feeds) : EngineFreed u' t' d := by
  simpa only [EngineFreed, State.engineOf, State.engine, State.feed, hue, huf, hte, htf] using h

theorem engineFreed_depart (s : State) (d : DistrictId) : EngineFreed s (s.depart d) d :=
  (engineFreed_freeEngineOf s d).congr rfl rfl rfl rfl

/-- Freeing an engine touches no stress account (R81). -/
theorem EngineFreed.stress {u t : State} {d : DistrictId} (h : EngineFreed u t d) (k : FeedId) :
    (t.feed k).stress = (u.feed k).stress := by
  obtain ⟨hidle, hfreed⟩ := h
  cases he : u.engineOf d with
  | none => rw [State.feed, State.feed, (hidle he).2]
  | some e =>
    obtain ⟨-, -, hown, hothers⟩ := hfreed e he
    by_cases hk : k = (u.engine e).feed
    · rw [hk, hown]
    · rw [hothers k hk]

/-! ### The filter of word 0 (R138) -/

/-- The intent code is the two low bits of the word. -/
theorem field_intent (w : Word) : field w 0 2 = (w &&& 3).toNat := by
  rw [BitVec.toNat_and]
  simpa [field] using (Nat.and_two_pow_sub_one_eq_mod w.toNat 2).symm

theorem intentOf_clear (w : Word) : intentOf (w &&& 0xFFFC) = .off := by
  have h : w &&& 0xFFFC &&& 3 = 0 := by rw [BitVec.and_assoc]; exact BitVec.and_zero
  rw [intentOf, field_intent, h]
  rfl

theorem intentOf_of_zero {w : Word} (h : w &&& 3 = 0) : intentOf w = .off := by
  rw [intentOf, field_intent, h]
  rfl

theorem intentOf_of_one {w : Word} (h : w &&& 3 = 1) : intentOf w = .on := by
  rw [intentOf, field_intent, h]
  rfl

theorem intentOf_of_two {w : Word} (h : w &&& 3 = 2) : intentOf w = .onManual := by
  rw [intentOf, field_intent, h]
  rfl

/-- OFF is stored as written. -/
theorem District.filterIntent_of_zero (x : District) {w : Word} (h : w &&& 3 = 0) : x.filterIntent w = w := by
  have hn : field w 0 2 ≠ 3 := by rw [field_intent, h]; decide
  rw [District.filterIntent, if_neg hn, intentOf_of_zero h]
  rfl

/-- ON and ON_MANUAL are stored as written where R138 does not refuse them. -/
theorem District.filterIntent_of_accepted (x : District) {w : Word} (h : w &&& 3 = 1 ∨ w &&& 3 = 2)
    (hr : x.refusesOn = false) : x.filterIntent w = w := by
  have hn : field w 0 2 ≠ 3 := by rcases h with h | h <;> rw [field_intent, h] <;> decide
  rw [District.filterIntent, if_neg hn, hr, Bool.and_false]
  rfl

/-- The undefined code is stored as OFF. -/
theorem District.intentOf_filterIntent_of_three (x : District) {w : Word} (h : w &&& 3 = 3) :
    intentOf (x.filterIntent w) = .off := by
  rw [District.filterIntent, if_pos (by rw [field_intent, h]; rfl), intentOf_clear]

/-- Where R138 refuses ON and ON_MANUAL, every code is stored as OFF. -/
theorem District.intentOf_filterIntent_of_refused (x : District) (w : Word) (hr : x.refusesOn = true) :
    intentOf (x.filterIntent w) = .off := by
  rw [District.filterIntent, hr, Bool.and_true]
  split
  · exact intentOf_clear w
  · split
    · exact intentOf_clear w
    · next hoff => cases hi : intentOf w <;> simp [hi, Intent.energising] at hoff ⊢

theorem District.refusesOn_eq_false_iff (x : District) : x.refusesOn = false ↔
    x.state ≠ .lockout ∧ x.state ≠ .locked ∧ x.state ≠ .checkHold ∧ x.invalid = false ∧ x.nodeField ≠ 0 := by
  simp [District.refusesOn, and_assoc]

/-- A word stored as it was written is no alteration (R136). -/
@[simp] theorem fieldsDiffer_self (w : Fin 5) (v : Word) : fieldsDiffer w v v = false := by
  simp [fieldsDiffer]

/-! ### Marks and intents the part sets to OFF (R130, R133) -/

@[simp] theorem State.dist_mark (s : State) (p : IntentPos) (d : DistrictId) : (s.mark p).dist d = s.dist d := by
  unfold State.mark
  split <;> rfl

@[simp] theorem State.queue_mark (s : State) (p : IntentPos) : (s.mark p).queue = s.queue := by
  unfold State.mark
  split <;> rfl

/-- A mark joins the set unless it is of an invalid context, and no other mark changes. -/
theorem State.mem_corrections_mark (s : State) (p q : IntentPos) :
    q ∈ (s.mark p).corrections ↔ q ∈ s.corrections ∨ q = p ∧ s.ofInvalid p = false := by
  unfold State.mark
  split
  · next h => simp [h]
  · next h => simp [eq_false_of_ne_true h, mem_insertPosition, or_comm]

/-- An intent set to OFF reads as OFF. -/
theorem District.intent_setWord_clear (x : District) : (x.setWord 0 (x.words[0] &&& 0xFFFC)).intent = .off :=
  (congrArg intentOf (get_put_same x.words 0 _)).trans (intentOf_clear _)

theorem State.dist_setIntentOff_same (s : State) (d : DistrictId) :
    (s.setIntentOff d).dist d = (s.dist d).setWord 0 ((s.dist d).words[0] &&& 0xFFFC) :=
  s.dist_modDist_same d _

/-! ### A filtered district word stored (R132, R136) -/

/-- A context with word w stored and its code computed anew, REFUSED latched if `refused`. -/
def District.storing (x : District) (w : Fin 5) (v : Word) (refused : Bool) : District :=
  { x with
    words := put x.words w v
    codeAgrees := true
    flags := { x.flags with refused := x.flags.refused || refused } }

/-- What storing word w of d changes: d's context, the word's mark and its place in memory. -/
theorem State.storeFiltered_eq (s : State) (d : DistrictId) (w : Fin 5) (v : Word) (refused : Bool) :
    s.storeFiltered d w v refused =
      { s with
        districts := put s.districts d ((s.dist d).storing w v refused)
        corrections := s.corrections.filter (fun q => q != .district d w)
        mem := Memory.write s.mem (addressOf s.windowBase (.district d w)) .both v } := by
  cases refused with
  | false => simp only [District.storing, Bool.or_false]; rfl
  | true =>
    simp only [State.storeFiltered, if_true, State.storeIntent, State.setCopy, State.unmark, State.writeMem,
      State.modDist, State.dist, get_put_same, put_put, District.storing, Bool.or_true]
    rfl

@[simp] theorem State.dist_storeFiltered_same (s : State) (d : DistrictId) (w : Fin 5) (v : Word)
    (refused : Bool) : (s.storeFiltered d w v refused).dist d = (s.dist d).storing w v refused := by
  rw [State.storeFiltered_eq]
  exact get_put_same _ _ _

theorem State.dist_storeFiltered_other (s : State) (d e : DistrictId) (w : Fin 5) (v : Word) (refused : Bool)
    (h : e ≠ d) : (s.storeFiltered d w v refused).dist e = s.dist e := by
  rw [State.storeFiltered_eq]
  exact get_put_other _ _ _ _ h

@[simp] theorem District.storing_word (x : District) (w : Fin 5) (v : Word) (refused : Bool) :
    (x.storing w v refused).words[w] = v := get_put_same _ _ _

theorem District.storing_word_other (x : District) (w z : Fin 5) (v : Word) (refused : Bool) (h : z ≠ w) :
    (x.storing w v refused).words[z] = x.words[z] := get_put_other _ _ _ _ h

@[simp] theorem District.storing_state (x : District) (w : Fin 5) (v : Word) (refused : Bool) :
    (x.storing w v refused).state = x.state := rfl

@[simp] theorem State.queue_storeFiltered (s : State) (d : DistrictId) (w : Fin 5) (v : Word) (refused : Bool) :
    (s.storeFiltered d w v refused).queue = s.queue := by rw [State.storeFiltered_eq]

@[simp] theorem State.engines_storeFiltered (s : State) (d : DistrictId) (w : Fin 5) (v : Word) (refused : Bool) :
    (s.storeFiltered d w v refused).engines = s.engines := by rw [State.storeFiltered_eq]

@[simp] theorem State.feeds_storeFiltered (s : State) (d : DistrictId) (w : Fin 5) (v : Word) (refused : Bool) :
    (s.storeFiltered d w v refused).feeds = s.feeds := by rw [State.storeFiltered_eq]

@[simp] theorem State.slots_storeFiltered (s : State) (d : DistrictId) (w : Fin 5) (v : Word) (refused : Bool) :
    (s.storeFiltered d w v refused).slots = s.slots := by rw [State.storeFiltered_eq]

@[simp] theorem State.node_storeFiltered (s : State) (d : DistrictId) (w : Fin 5) (v : Word) (refused : Bool)
    (k : NodeId) : (s.storeFiltered d w v refused).node k = s.node k := by rw [State.storeFiltered_eq]; rfl

/-! ### Reload (R23) -/


theorem State.reloadWord_of_valid (s : State) (d : DistrictId) (w : Fin 5) (h : (s.dist d).invalid = false) :
    s.reloadWord d w = s := by
  simp [State.reloadWord, h]

theorem State.reloadWord_of_partial (s : State) (d : DistrictId) (w : Fin 5) (h : (s.dist d).invalid = true)
    (hr : (s.dist d).reload ||| BitVec.twoPow 5 w.val ≠ BitVec.allOnes 5) :
    s.reloadWord d w =
      s.modDist d (fun x => { x with reload := (s.dist d).reload ||| BitVec.twoPow 5 w.val }) := by
  simp only [State.reloadWord, h, if_true, if_neg hr]

theorem State.reloadWord_of_complete (s : State) (d : DistrictId) (w : Fin 5) (h : (s.dist d).invalid = true)
    (hr : (s.dist d).reload ||| BitVec.twoPow 5 w.val = BitVec.allOnes 5) (hs : (s.dist d).state ≠ .checkHold) :
    s.reloadWord d w = s.modDist d (fun x => { x with invalid := false, codeAgrees := true, reload := 0 }) := by
  simp [State.reloadWord, h, hr, hs]

theorem State.reloadWord_of_complete_checkHold (s : State) (d : DistrictId) (w : Fin 5)
    (h : (s.dist d).invalid = true)
    (hr : (s.dist d).reload ||| BitVec.twoPow 5 w.val = BitVec.allOnes 5) (hs : (s.dist d).state = .checkHold) :
    s.reloadWord d w =
      (s.modDist d (fun x => { x with invalid := false, codeAgrees := true, reload := 0 })).enter d .off := by
  simp [State.reloadWord, h, hr, hs]

/-- Outside CHECK_HOLD a reload touches the context-invalid flag, the check code and the reload set alone. -/
theorem State.reloadWord_cases (s : State) (d : DistrictId) (w : Fin 5) (hs : (s.dist d).state ≠ .checkHold) :
    ∃ (invalid agrees : Bool) (set : BitVec 5), s.reloadWord d w =
      s.modDist d (fun x => { x with invalid := invalid, codeAgrees := agrees, reload := set }) := by
  cases hi : (s.dist d).invalid with
  | false => exact ⟨(s.dist d).invalid, (s.dist d).codeAgrees, (s.dist d).reload, by
      rw [s.reloadWord_of_valid d w hi]; exact (s.modDist_self d _ rfl).symm⟩
  | true =>
    by_cases hr : (s.dist d).reload ||| BitVec.twoPow 5 w.val = BitVec.allOnes 5
    · exact ⟨false, true, 0, s.reloadWord_of_complete d w hi hr hs⟩
    · exact ⟨(s.dist d).invalid, (s.dist d).codeAgrees, _, by
        rw [s.reloadWord_of_partial d w hi hr]; rfl⟩

/-! ### Host writes with the face free (R126, R136; log 4) -/

theorem State.running_hostWrite (s : State) (p : IntentPos) (v : Word) (l : Lanes) (taken : State → State)
    (hf : s.faceFree) : s.running (State.hostWrite p v l taken) = taken s := by
  obtain ⟨hr, hi⟩ := hf
  simp [hr, State.hostWrite, State.wholeAccess, hi]

theorem State.readForWrite_of_passes (s : State) (d : DistrictId) (hp : s.passes d) : s.readForWrite d = s := by
  have h : s.checkFails d = false := hp
  simp [State.readForWrite, h]

/-- A write of word 0 whose reading passes its check: the filtered word stored, the move it makes, the reload,
and the end of the claim. -/
theorem exec_hostIntentWrite_of_passes {s : State} {d : DistrictId} {v : Word} {l : Lanes} {stored : Word}
    (hf : s.faceFree) (hp : s.passes d)
    (hs : (s.dist d).filterIntent (mergeLanes l v (s.dist d).words[(0 : Fin 5)]) = stored) :
    exec (.hostIntentWrite d v l) s = .next (s.finish d
      (((s.storeFiltered d 0 stored
        (fieldsDiffer 0 (mergeLanes l v (s.dist d).words[(0 : Fin 5)]) stored)).intentMove d
          (intentOf stored)).reloadWord d 0)) := by
  subst hs
  have h : exec (.hostIntentWrite d v l) s =
      .next (s.running (State.hostWrite (.district d 0) v l (State.writeHostIntent d v l))) := rfl
  rw [h, s.running_hostWrite _ v l _ hf, State.writeHostIntent, s.readForWrite_of_passes d hp]
  rfl

end Sys2Proof.Machine
end

section
/-! SUPPORT. The lockout clear, the full reset, the attempt limit and the layout reset. -/

namespace Sys2Proof.Machine

open Sys2Proof

/-! ### CLEAR_LOCKOUT (R17, R149) -/

theorem exec_clearLockout_of_passes (s : State) (d : DistrictId) (hr : s.inReset = false) (hp : s.passes d) :
    exec (.clearLockout d) s = .next (s.finish d (s.clearLockoutAt d)) := by
  have h : exec (.clearLockout d) s = .next (s.running (State.clearLockout d)) := rfl
  rw [h, s.running_of_run _ hr, State.clearLockout, s.claim_of_passes d _ hp]

/-- A LOCKOUT context freed: a lockout holds no role of a solitary cut, so the role stands. -/
theorem State.clearLockoutAt_of_lockout (s : State) (d : DistrictId) (h : (s.dist d).state = .lockout) :
    s.clearLockoutAt d = s.modDist d (fun x =>
      { x with
        state := .off
        attempts := 0
        level := 0
        mark := false
        holdoffTimer := .none
        provingTimer := .none
        quietTimer := .none }) := by
  have hrole : (s.dist d).dropsRole = false := by simp [District.dropsRole, h]
  rw [State.clearLockoutAt, if_pos h, State.enter, State.modDist_modDist]
  simp only [State.modDist, District.enter_off, hrole, Bool.false_eq_true, if_false]

/-- Settles O8: the claim takes its effect in LOCKOUT, and elsewhere has none to bring a notice or a scan. -/
theorem clearLockoutFreesLockedOutDistrict : Obligations.ClearLockoutFreesLockedOutDistrict := by
  intro s d hr hp
  rw [exec_clearLockout_of_passes s d hr hp]
  refine ⟨fun h => ?_, fun h => ?_⟩
  · rw [s.clearLockoutAt_of_lockout d h]
  · rw [State.clearLockoutAt, if_neg h, s.finish_of_same d s rfl rfl rfl]

/-! ### FULL_RESET (R26, R134) -/

/-- Every intent word is a position of the list a full reset marks. -/
theorem mem_allPositions (p : IntentPos) : p ∈ allPositions := by
  cases p with
  | control r => cases r <;> simp [allPositions]
  | feed k r => cases r <;> simp [allPositions]
  | adjacency j => simp [allPositions]
  | district d w => simp [allPositions]

theorem State.byte_spoil (s : State) (a : WordAddr) {x : Nat} (h0 : x ≠ 2 * a.toNat)
    (h1 : x ≠ 2 * a.toNat + 1) : Memory.byte (s.spoil a).mem x = Memory.byte s.mem x := by
  simp only [State.spoil, Memory.byte_write_other _ _ _ _ _ h0 h1]

/-- An own word cut off spoils its own two bytes alone. -/
theorem sameBytesOutside_cutOff (s t : State) (h : t.mem = s.cutOff.mem) :
    SameBytesOutside s t s.ownWordAddress := by
  intro x hx
  rw [h]
  unfold State.cutOff
  cases hf : s.face with
  | idle => rfl
  | host => rfl
  | correction p v =>
    obtain ⟨h0, h1⟩ := hx (addressOf s.windowBase p) (by rw [State.ownWordAddress, hf])
    exact s.byte_spoil _ h0 h1
  | ring a v =>
    obtain ⟨h0, h1⟩ := hx a (by rw [State.ownWordAddress, hf])
    exact s.byte_spoil _ h0 h1

section
variable (pins : Pins) (mem : List Host.Cell) (choices : Nat) (pending : List Instr)

@[simp] theorem dist_afterFullReset (d : DistrictId) :
    (State.afterFullReset pins mem choices pending).dist d = District.reset := by
  simp [State.dist, State.afterFullReset]

@[simp] theorem slot_afterFullReset (n : SlotId) :
    (State.afterFullReset pins mem choices pending).slot n = Slot.blank := by
  simp [State.slot, State.afterFullReset]

@[simp] theorem engine_afterFullReset (e : EngineId) :
    (State.afterFullReset pins mem choices pending).engine e = Engine.idle := by
  simp [State.engine, State.afterFullReset]

@[simp] theorem feed_afterFullReset (k : FeedId) :
    (State.afterFullReset pins mem choices pending).feed k = Feed.reset (pins.boosters.getLsbD k.val) := by
  simp [State.feed, State.afterFullReset]

@[simp] theorem line_afterFullReset (k : FeedId) :
    (State.afterFullReset pins mem choices pending).line k = pins.boosters.getLsbD k.val := by
  simp [State.line, State.afterFullReset]

@[simp] theorem node_afterFullReset (k : NodeId) :
    (State.afterFullReset pins mem choices pending).node k = Node.reset := by
  simp [State.node, State.afterFullReset]

@[simp] theorem channel_afterFullReset (k : NodeId) (c : ChannelId) :
    (State.afterFullReset pins mem choices pending).channel k c = { output := .off, newCut := false } := by
  simp [State.channel, Node.reset]

@[simp] theorem adjacency_afterFullReset (j : Fin 48) :
    (State.afterFullReset pins mem choices pending).adjacency[j] = 0 := by
  simp [State.afterFullReset]

@[simp] theorem marked_afterFullReset (p : IntentPos) :
    (State.afterFullReset pins mem choices pending).marked p = true :=
  List.contains_iff_mem.mpr (mem_allPositions p)

end

/-- Settles O5, block by block. -/
theorem fullResetSetsEveryBlock : Obligations.FullResetSetsEveryBlock := by
  intro s pins
  refine ⟨s.fullReset pins, rfl, fun d => ?_, fun n => ?_, rfl, rfl, fun e => ?_, fun k => ?_, rfl, rfl, rfl,
    rfl, fun k => ?_, fun j => ?_, rfl, rfl, rfl, rfl, rfl, rfl, fun p => ?_, rfl, rfl, rfl, rfl, rfl,
    sameBytesOutside_cutOff s _ rfl⟩
  all_goals rw [State.fullReset]
  · rw [dist_afterFullReset]
    exact ⟨rfl, rfl, rfl, rfl, rfl, rfl, rfl, rfl, rfl, rfl, rfl, rfl, rfl, rfl, rfl, rfl, rfl, rfl⟩
  · rw [slot_afterFullReset]
    exact ⟨rfl, rfl, rfl, rfl, rfl, rfl, rfl, rfl, rfl⟩
  · rw [engine_afterFullReset]
    exact ⟨rfl, rfl, rfl, rfl⟩
  · rw [feed_afterFullReset, line_afterFullReset]
    exact ⟨rfl, rfl, rfl, rfl, rfl, rfl, rfl, rfl, rfl, rfl, rfl⟩
  · rw [node_afterFullReset]
    exact ⟨rfl, rfl, rfl, channel_afterFullReset pins _ _ _ k⟩
  · exact adjacency_afterFullReset pins _ _ _ j
  · exact marked_afterFullReset pins _ _ _ p

/-! ### ATTEMPT_LIMIT_WRITE (R19, R137, R141) -/

/-- The limit field of a word clamped, in numbers. -/
theorem toNat_clampField_limit (w : Word) :
    (clampField w 0 3 1 7).toNat = w.toNat / 8 * 8 + max 1 (w.toNat % 8) := by
  have hw := w.isLt
  have hc : clamp 1 7 (w.toNat % 8) = max 1 (w.toNat % 8) := by
    unfold clamp
    split
    · omega
    · split <;> omega
  have hf : field w 0 3 = w.toNat % 8 := by simp [field]
  rw [clampField, hf, hc, setField, hf, BitVec.toNat_ofNat]
  simp only [pow_zero, Nat.mul_one]
  omega

/-- The clamped limit is the least of 1 to 7 that is not below it. -/
theorem field_clampField_limit (w : Word) : field (clampField w 0 3 1 7) 0 3 = max 1 (field w 0 3) := by
  simp only [field, toNat_clampField_limit, pow_zero, Nat.div_one]
  omega

theorem getLsbD_limitMask : ∀ i : Fin 16, (0xFFF8 : Word).getLsbD i.val = decide (3 ≤ i.val) := by decide

/-- Two words with the same bits above the limit field agree under its mask. -/
theorem and_limitMask_congr {v w : Word} (h : v.toNat / 8 = w.toNat / 8) : v &&& 0xFFF8 = w &&& 0xFFF8 := by
  have hs : v >>> 3 = w >>> 3 := BitVec.eq_of_toNat_eq (by simpa [Nat.shiftRight_eq_div_pow] using h)
  apply BitVec.eq_of_getLsbD_eq
  intro i hi
  rw [BitVec.getLsbD_and, BitVec.getLsbD_and, getLsbD_limitMask ⟨i, hi⟩]
  by_cases h3 : 3 ≤ i
  · have hbit := congrArg (fun x : Word => x.getLsbD (i - 3)) hs
    simp only [BitVec.getLsbD_ushiftRight, Nat.add_sub_cancel' h3] at hbit
    rw [hbit]
  · simp [h3]

/-- Settles O24: a clamp of the low field, and the cap taken over every context at once. -/
theorem attemptLimitWriteCapsCounts : Obligations.AttemptLimitWriteCapsCounts := by
  intro s v l hf
  have hx : exec (.attemptLimitWrite v l) s = .next (s.writeAttemptLimit v l) := by
    rw [← s.running_hostWrite (.control .attemptLimit) v l (State.writeAttemptLimit v l) hf]
    rfl
  refine ⟨s.writeAttemptLimit v l, _, _, hx, rfl, field_clampField_limit _, and_limitMask_congr ?_, rfl, rfl,
    fun d => ?_, rfl, fun p => ?_, rfl⟩
  · rw [toNat_clampField_limit]
    omega
  · exact get_tabulate _ d
  · exact s.mem_corrections_storeIntent (.control .attemptLimit) p _

/-! ### LAYOUT_RESET (R27) -/

/-- Whether a layout reset turns the intent of a context off: it is valid, and ON or ON_MANUAL. -/
def District.turnsOff (x : District) : Bool := !x.invalid && x.intent.energising

/-- What a layout reset makes of the intent of a context. -/
def District.restingIntent (x : District) : District :=
  if x.turnsOff then x.setWord 0 (x.words[0] &&& 0xFFFC) else x

theorem District.turnsOff_iff (x : District) :
    x.turnsOff = true ↔ x.invalid = false ∧ (x.intent = .on ∨ x.intent = .onManual) := by
  cases h : x.intent <;> simp [District.turnsOff, h, Intent.energising]

theorem District.turnsOff_restingIntent (x : District) : x.restingIntent.turnsOff = false := by
  unfold District.restingIntent
  split
  · rw [District.turnsOff, x.intent_setWord_clear]; exact Bool.and_false _
  · next h => exact eq_false_of_ne_true h

theorem District.restingIntent_idem (x : District) : x.restingIntent.restingIntent = x.restingIntent := by
  rw [District.restingIntent, x.turnsOff_restingIntent]
  rfl

/-- Only word 0 and the code over it change. -/
theorem District.restingIntent_eq (x : District) :
    ∃ (v : Word) (agrees : Bool),
      x.restingIntent = { x with words := put x.words 0 v, codeAgrees := agrees } := by
  unfold District.restingIntent
  split
  · exact ⟨_, true, rfl⟩
  · exact ⟨x.words[(0 : Fin 5)], x.codeAgrees, by rw [put_self]⟩

theorem State.restIntent_of_turnsOff (s : State) (d : DistrictId) (h : (s.dist d).turnsOff = true) :
    s.restIntent d = (s.modDist d District.restingIntent).mark (.district d 0) := by
  have hx : (s.dist d).restingIntent = (s.dist d).setWord 0 ((s.dist d).words[0] &&& 0xFFFC) := if_pos h
  have hr : s.restIntent d = (s.setIntentOff d).mark (.district d 0) := if_pos h
  rw [hr, State.setIntentOff, State.modDist, State.modDist, hx]

theorem State.restIntent_of_not_turnsOff (s : State) (d : DistrictId) (h : (s.dist d).turnsOff = false) :
    s.restIntent d = s :=
  if_neg (Bool.eq_false_iff.mp h)

theorem State.dist_restIntent (s : State) (d e : DistrictId) :
    (s.restIntent e).dist d = if d = e then (s.dist d).restingIntent else s.dist d := by
  cases h : (s.dist e).turnsOff with
  | true =>
    rw [s.restIntent_of_turnsOff e h, State.dist_mark, State.dist_modDist]
    split
    · next hd => rw [hd]
    · rfl
  | false =>
    rw [s.restIntent_of_not_turnsOff e h]
    split
    · next hd => rw [hd, District.restingIntent, h]; rfl
    · rfl

theorem State.mem_corrections_restIntent (s : State) (e : DistrictId) (p : IntentPos) :
    p ∈ (s.restIntent e).corrections ↔ p ∈ s.corrections ∨ p = .district e 0 ∧ (s.dist e).turnsOff = true := by
  cases h : (s.dist e).turnsOff with
  | true =>
    have hv : (s.modDist e District.restingIntent).ofInvalid (.district e 0) = false := by
      obtain ⟨v, agrees, hx⟩ := (s.dist e).restingIntent_eq
      rw [State.ofInvalid, State.dist_modDist_same, hx]
      exact ((s.dist e).turnsOff_iff.mp h).1
    rw [s.restIntent_of_turnsOff e h, State.mem_corrections_mark, hv]
    simp
  | false =>
    rw [s.restIntent_of_not_turnsOff e h]
    simp

/-- Over a list of districts: the intents of those listed are off where they must be. -/
theorem dist_foldl_restIntent (d : DistrictId) : ∀ (l : List DistrictId) (s : State),
    (l.foldl State.restIntent s).dist d = if d ∈ l then (s.dist d).restingIntent else s.dist d := by
  intro l
  induction l with
  | nil => intro s; simp
  | cons e l ih =>
    intro s
    rw [List.foldl_cons, ih, s.dist_restIntent d e]
    by_cases he : d = e
    · simp [he, District.restingIntent_idem]
    · simp [he]

/-- Over a list of districts: word 0 of each listed context that is turned off joins the marks, and nothing else
does. -/
theorem mem_corrections_foldl_restIntent (p : IntentPos) : ∀ (l : List DistrictId) (s : State),
    p ∈ (l.foldl State.restIntent s).corrections ↔
      p ∈ s.corrections ∨ ∃ d ∈ l, p = .district d 0 ∧ (s.dist d).turnsOff = true := by
  intro l
  induction l with
  | nil => intro s; simp
  | cons e l ih =>
    intro s
    rw [List.foldl_cons, ih, s.mem_corrections_restIntent e p]
    simp only [s.dist_restIntent, List.mem_cons]
    constructor
    · rintro ((h | ⟨rfl, h⟩) | ⟨d, hd, rfl, h⟩)
      · exact .inl h
      · exact .inr ⟨e, .inl rfl, rfl, h⟩
      · split at h
        · rw [District.turnsOff_restingIntent] at h; cases h
        · exact .inr ⟨d, .inr hd, rfl, h⟩
    · rintro (h | ⟨d, rfl | hd, rfl, h⟩)
      · exact .inl (.inl h)
      · exact .inl (.inr ⟨rfl, h⟩)
      · by_cases he : d = e
        · exact .inl (.inr ⟨by rw [he], he ▸ h⟩)
        · exact .inr ⟨d, hd, rfl, by rw [if_neg he]; exact h⟩

/-- What R27 leaves of the context of d. -/
theorem dist_layoutReset (s : State) (d : DistrictId) :
    s.layoutReset.dist d = (s.dist d).rest.restingIntent := by
  have h : s.layoutReset.dist d = s.restDistricts.dist d := by
    simp only [State.layoutReset, State.restSequencing, State.discardSlots, State.dist]
  rw [h, State.restDistricts, dist_foldl_restIntent, if_pos (List.mem_finRange d), State.dist_tabulate]

/-- The marks a layout reset adds: word 0 of each valid context whose intent was ON or ON_MANUAL. -/
theorem mem_corrections_layoutReset (s : State) (p : IntentPos) : p ∈ s.layoutReset.corrections ↔
    p ∈ s.corrections ∨ ∃ d : DistrictId, p = .district d 0 ∧ (s.dist d).turnsOff = true := by
  have h : s.layoutReset.corrections = s.restDistricts.corrections := by
    simp only [State.layoutReset, State.restSequencing, State.discardSlots]
  rw [h, State.restDistricts, mem_corrections_foldl_restIntent]
  simp only [List.mem_finRange, true_and, State.dist_tabulate]
  rfl

theorem DistrictState.rested_eq (st : DistrictState) :
    st.rested = if st = .locked ∨ st = .unreachable ∨ st = .checkHold then st else .off := by
  cases st <;> rfl

/-- Settles O6, by the context that `District.rest` gives and the intents turned off one after another. -/
theorem layoutResetRestsEveryContext : Obligations.LayoutResetRestsEveryContext := by
  intro s hr
  have hrun : exec .layoutReset s = .next (s.running State.layoutReset) := rfl
  rw [hrun, s.running_of_run _ hr]
  refine ⟨s.layoutReset, rfl, fun d => ?_⟩
  obtain ⟨v, agrees, hx⟩ := (s.dist d).rest.restingIntent_eq
  have hd : s.layoutReset.dist d =
      { (s.dist d).rest with words := put (s.dist d).words 0 v, codeAgrees := agrees } :=
    (dist_layoutReset s d).trans hx
  have hw : ∀ w : Fin 5, w ≠ 0 → (s.layoutReset.dist d).words[w] = (s.dist d).words[w] := fun w hw => by
    rw [hd]
    exact get_put_other _ _ _ _ hw
  refine ⟨?_, ?_, ?_, ?_, ?_, ?_, ?_, ?_, ?_, ?_, ?_, ?_, ?_, ?_, ?_, ?_, hw, ?_, ?_⟩
  · rw [hd, ← DistrictState.rested_eq]
    rfl
  -- the fifteen fields that `District.rest` sets or keeps
  iterate 15 rw [hd]; rfl
  · split
    · next h =>
      have ht := (s.dist d).turnsOff_iff.mpr h
      refine ⟨?_, (mem_corrections_layoutReset s _).mpr (.inr ⟨d, rfl, ht⟩)⟩
      rw [dist_layoutReset, District.restingIntent, if_pos (show (s.dist d).rest.turnsOff = true from ht),
        District.intent_setWord_clear]
    · next h =>
      have ht : (s.dist d).rest.turnsOff = false :=
        eq_false_of_ne_true (fun ht => h ((s.dist d).turnsOff_iff.mp ht))
      rw [dist_layoutReset, District.restingIntent, ht]
      rfl
  · intro hi w hm
    rcases (mem_corrections_layoutReset s _).mp hm with hm | ⟨e, he, ht⟩
    · exact hm
    · obtain ⟨rfl, -⟩ := IntentPos.district.inj he
      rw [((s.dist d).turnsOff_iff.mp ht).1] at hi
      cases hi

end Sys2Proof.Machine
end

section
/-! SUPPORT. The moves of a host intent write (R11 to R16). -/

namespace Sys2Proof.Machine

open Sys2Proof

/-! ### The moves, one equation per row -/

/-- A district that an intent of OFF takes to OFF (R13, R14). -/
def DistrictState.stoppable : DistrictState → Bool
  | .queued | .ramping | .proving | .live | .reversing | .holdoff | .gated | .stopped => true
  | .off | .tripped | .lockout | .locked | .unreachable | .checkHold => false

theorem State.intentMove_stops (s : State) (d : DistrictId) (h : (s.dist d).state.stoppable = true) :
    s.intentMove d .off = (s.depart d).enter d .off := by
  cases hs : (s.dist d).state with
  | off | tripped | lockout | locked | unreachable | checkHold => rw [hs] at h; cases h
  | _ => simp [State.intentMove, Intent.energising, hs]

theorem State.intentMove_starts (s : State) (d : DistrictId) (i : Intent)
    (h : (s.dist d).state = .off ∧ (i = .on ∨ i = .onManual) ∨ (s.dist d).state = .stopped ∧ i = .on) :
    s.intentMove d i = s.start d := by
  rcases h with ⟨hs, rfl | rfl⟩ | ⟨hs, rfl⟩ <;> simp [State.intentMove, Intent.energising, hs]

/-- In TRIPPED an intent decides the withdrawn mark alone (R12, R15). -/
theorem State.intentMove_tripped (s : State) (d : DistrictId) (i : Intent) (h : (s.dist d).state = .tripped) :
    s.intentMove d i = s.setWithdrawn d (!i.energising) := by
  cases i <;> simp [State.intentMove, Intent.energising, h]

/-- ON and ON_MANUAL move no district of the other states (R12). -/
theorem State.intentMove_stays_on (s : State) (d : DistrictId) (i : Intent) (h : (s.dist d).state ≠ .off)
    (ht : (s.dist d).state ≠ .tripped) (hi : i = .onManual ∨ i = .on ∧ (s.dist d).state ≠ .stopped) :
    s.intentMove d i = s := by
  cases hs : (s.dist d).state with
  | off => exact absurd hs h
  | tripped => exact absurd hs ht
  | stopped =>
    rcases hi with rfl | ⟨-, hstop⟩
    · simp [State.intentMove, Intent.energising, hs]
    · exact absurd hs hstop
  | _ => rcases hi with rfl | ⟨rfl, -⟩ <;> simp [State.intentMove, Intent.energising, hs]

/-- OFF moves no district of the other states (R15, R16). -/
theorem State.intentMove_stays_off (s : State) (d : DistrictId) (h : (s.dist d).state.stoppable = false)
    (ht : (s.dist d).state ≠ .tripped) : s.intentMove d .off = s := by
  cases hs : (s.dist d).state with
  | tripped => exact absurd hs ht
  | off | lockout | locked | unreachable | checkHold => simp [State.intentMove, Intent.energising, hs]
  | _ => rw [hs] at h; cases h

/-! ### Starts (R11, R12) -/

theorem State.start_of_present (s : State) (d : DistrictId) (k : NodeId) (hk : (s.dist d).node = some k)
    (hp : (s.node k).state = .present) : s.start d = s.enterQueued d false := by
  simp [State.start, State.nodePresent, hk, hp]

theorem State.start_of_not_present (s : State) (d : DistrictId) (k : NodeId) (hk : (s.dist d).node = some k)
    (hp : (s.node k).state ≠ .present) : s.start d = s.enter d .unreachable := by
  simp [State.start, State.nodePresent, hk, hp]

/-- A start from a mapped district: what it makes of d's context and of the queue, and what it leaves. -/
theorem State.start_spec (s : State) (d : DistrictId) (k : NodeId) (hk : (s.dist d).node = some k) :
    ((s.start d).dist d).words = (s.dist d).words ∧ ((s.start d).dist d).invalid = (s.dist d).invalid
      ∧ ((s.start d).dist d).level = 0 ∧ ((s.start d).dist d).mark = false
      ∧ ((s.node k).state = .present → ((s.start d).dist d).state = .queued
          ∧ ∃ before after : List DistrictId, NormalPlace s d before after
            ∧ (s.start d).queue = before ++ d :: after)
      ∧ ((s.node k).state ≠ .present → ((s.start d).dist d).state = .unreachable ∧ (s.start d).queue = s.queue)
      ∧ (s.start d).engines = s.engines ∧ (s.start d).feeds = s.feeds ∧ (s.start d).slots = s.slots := by
  by_cases hp : (s.node k).state = .present
  · obtain ⟨before, after, hplace, hu⟩ := s.enterQueued_place d false
    have hx : (s.start d).dist d = ({ s.dist d with mark := false } : District).enter s.control .queued := by
      rw [s.start_of_present d k hk hp, s.dist_enterQueued_same]
    rw [hx, s.start_of_present d k hk hp, hu]
    exact ⟨rfl, rfl, rfl, rfl, fun _ => ⟨rfl, before, after, hplace, rfl⟩, fun h => absurd hp h, rfl, rfl, rfl⟩
  · rw [s.start_of_not_present d k hk hp, State.dist_enter_same]
    exact ⟨rfl, rfl, rfl, rfl, fun h => absurd h hp, fun _ => ⟨rfl, rfl⟩, rfl, rfl, rfl⟩

/-- Mapping, priority and the other words do not depend on word 0. -/
theorem District.nodeField_storing_zero (x : District) (v : Word) (r : Bool) :
    (x.storing 0 v r).nodeField = x.nodeField := by
  simp [District.nodeField, District.storing]

theorem District.priority_storing (x : District) (w : Fin 5) (v : Word) (r : Bool) (hw : w ≠ 2) :
    (x.storing w v r).priority = x.priority :=
  congrArg (fun u : Word => field u 4 2) (x.storing_word_other w 2 v r hw.symm)

/-- A word that is not word 2 leaves the places in the queue. -/
theorem normalPlace_storeFiltered (s : State) (d : DistrictId) (w : Fin 5) (v : Word) (r : Bool) (hw : w ≠ 2)
    (before after : List DistrictId) :
    NormalPlace (s.storeFiltered d w v r) d before after ↔ NormalPlace s d before after := by
  have hp : ∀ q : DistrictId, ((s.storeFiltered d w v r).dist q).priority = (s.dist q).priority := fun q => by
    by_cases hq : q = d
    · rw [hq, State.dist_storeFiltered_same, District.priority_storing _ _ _ _ hw]
    · rw [State.dist_storeFiltered_other _ _ _ _ _ _ hq]
  simp only [NormalPlace, State.queue_storeFiltered, hp]

/-- Settles O14: the code is stored as written, and the move is a start. -/
theorem hostIntentWriteStartsDistrict : Obligations.HostIntentWriteStartsDistrict := by
  intro s d v l k hf hp hi hk hc
  have hcode : mergeLanes l v (s.dist d).words[(0 : Fin 5)] &&& 3 = 1
      ∨ mergeLanes l v (s.dist d).words[(0 : Fin 5)] &&& 3 = 2 := by
    rcases hc with ⟨-, hc⟩ | ⟨-, hc⟩
    · exact hc
    · exact .inl hc
  have hnode : (s.dist d).nodeField ≠ 0 := fun h => by simp [District.node, nodeOfField, h] at hk
  have hacc : (s.dist d).refusesOn = false := by
    rw [District.refusesOn_eq_false_iff]
    rcases hc with ⟨hs, -⟩ | ⟨hs, -⟩ <;> simp [hs, hi, hnode]
  rw [exec_hostIntentWrite_of_passes hf hp ((s.dist d).filterIntent_of_accepted hcode hacc), fieldsDiffer_self]
  generalize mergeLanes l v (s.dist d).words[(0 : Fin 5)] = m at hc hcode ⊢
  have hx := s.dist_storeFiltered_same d 0 m false
  have hnd : ((s.storeFiltered d 0 m false).dist d).node = some k := by
    rw [hx, District.node, District.nodeField_storing_zero]
    exact hk
  have hmove : (s.storeFiltered d 0 m false).intentMove d (intentOf m) =
      (s.storeFiltered d 0 m false).start d := by
    apply State.intentMove_starts
    rw [hx]
    exact hc.imp (And.imp_right (Or.imp intentOf_of_one intentOf_of_two)) (And.imp_right intentOf_of_one)
  obtain ⟨hwords, hinv, hlevel, hmark, hpres, habs, heng, hfeeds, hslots⟩ :=
    (s.storeFiltered d 0 m false).start_spec d k hnd
  rw [hx] at hwords hinv
  rw [hmove, State.reloadWord_of_valid _ d 0 (hinv.trans hi)]
  simp only [State.node_storeFiltered, State.queue_storeFiltered, State.engines_storeFiltered,
    State.feeds_storeFiltered, State.slots_storeFiltered] at hpres habs heng hfeeds hslots
  refine ⟨_, rfl, ?_, hlevel, hmark, fun hn => ?_, habs, heng, hfeeds, hslots⟩
  · rw [hwords, District.storing_word]
  · obtain ⟨hstate, before, after, hplace, hqueue⟩ := hpres hn
    obtain ⟨hq, ha, hb⟩ := (normalPlace_storeFiltered s d 0 m false (by decide) before after).mp hplace
    exact ⟨hstate, before, after, hq, hqueue, ha, hb⟩

/-! ### Stops (R13, R14) -/

theorem DistrictState.stoppable_iff (st : DistrictState) : st.stoppable = true ↔
    st = .queued ∨ st = .ramping ∨ st = .proving ∨ st = .live ∨ st = .reversing ∨ st = .holdoff ∨ st = .gated
      ∨ st = .stopped := by
  cases st <;> decide

/-- Settles O15: the move is a departure and an entry to OFF; a reload after it touches no field named. -/
theorem hostIntentOffStopsDistrict : Obligations.HostIntentOffStopsDistrict := by
  intro s d v l hf hp hm hs
  rw [exec_hostIntentWrite_of_passes hf hp ((s.dist d).filterIntent_of_zero hm), fieldsDiffer_self,
    intentOf_of_zero hm]
  generalize mergeLanes l v (s.dist d).words[(0 : Fin 5)] = m
  have hx := s.dist_storeFiltered_same d 0 m false
  have hmove := (s.storeFiltered d 0 m false).intentMove_stops d (by
    rw [hx]
    exact (DistrictState.stoppable_iff _).mpr hs)
  obtain ⟨invalid, agrees, set, hu⟩ :=
    (((s.storeFiltered d 0 m false).depart d).enter d .off).reloadWord_cases d 0 (by
      rw [State.dist_enter_same, District.enter_state]
      decide)
  rw [hmove, hu, State.enter, State.modDist_modDist]
  have hfreed : EngineFreed s ((s.storeFiltered d 0 m false).depart d) d :=
    (engineFreed_depart _ d).congr (by simp) (by simp) rfl rfl
  refine ⟨_, rfl, ?_⟩
  rw [State.dist_modDist_same, State.dist_depart, hx]
  refine ⟨rfl, rfl, rfl, rfl, rfl, rfl, rfl, rfl, ?_, hfreed.stress, hfreed.1, fun e he => ?_, ?_,
    fun e he => ?_⟩
  · rw [State.modDist_queue, State.queue_depart, State.queue_storeFiltered]
  · obtain ⟨hengine, hothers, hfeed, -⟩ := hfreed.2 e he
    simp only [State.modDist_engine, State.modDist_feed]
    exact ⟨by rw [hengine], by rw [hengine], by rw [hfeed], hothers⟩
  · rw [State.modDist_slots, State.slots_depart, State.slots_storeFiltered]
  · rw [State.dist_modDist_other _ _ _ _ he, State.dist_depart, State.dist_storeFiltered_other _ _ _ _ _ _ he]

/-! ### No move (R12, R15, R16) -/

/-- OFF and the undefined code are stored with the intent OFF. -/
theorem District.intentOf_filterIntent_of_off (x : District) {w : Word} (h : w &&& 3 = 0 ∨ w &&& 3 = 3) :
    intentOf (x.filterIntent w) = .off := by
  rcases h with h | h
  · rw [x.filterIntent_of_zero h, intentOf_of_zero h]
  · exact x.intentOf_filterIntent_of_three h

theorem State.members_setWithdrawn (s : State) (d : DistrictId) (b : Bool) (n : SlotId)
    (h : (s.dist d).incidentSlot = some n) : ((s.setWithdrawn d b).slot n).members =
      (s.slot n).members.map (fun m => if m.district = d then { m with withdrawn := b } else m) := by
  simp [State.setWithdrawn, h]

/-- The withdrawn mark is the slots' alone. -/
theorem State.setWithdrawn_eq (s : State) (d : DistrictId) (b : Bool) :
    s.setWithdrawn d b = { s with slots := (s.setWithdrawn d b).slots } := by
  unfold State.setWithdrawn
  split <;> rfl

@[simp] theorem State.dist_setWithdrawn (s : State) (d e : DistrictId) (b : Bool) :
    (s.setWithdrawn d b).dist e = s.dist e := by rw [State.setWithdrawn_eq]; rfl

@[simp] theorem State.queue_setWithdrawn (s : State) (d : DistrictId) (b : Bool) :
    (s.setWithdrawn d b).queue = s.queue := by rw [State.setWithdrawn_eq]

@[simp] theorem State.engines_setWithdrawn (s : State) (d : DistrictId) (b : Bool) :
    (s.setWithdrawn d b).engines = s.engines := by rw [State.setWithdrawn_eq]

@[simp] theorem State.feeds_setWithdrawn (s : State) (d : DistrictId) (b : Bool) :
    (s.setWithdrawn d b).feeds = s.feeds := by rw [State.setWithdrawn_eq]

/-- A write whose move leaves d's context, the queue and the engines brings no notice and no scan. -/
theorem exec_hostIntentWrite_of_stays {s : State} {d : DistrictId} {v : Word} {l : Lanes} {stored : Word}
    (hf : s.faceFree) (hp : s.passes d) (hi : (s.dist d).invalid = false)
    (hs : (s.dist d).filterIntent (mergeLanes l v (s.dist d).words[(0 : Fin 5)]) = stored)
    (hu : ∀ refused : Bool, ∃ slots : Vector Slot 4,
      (s.storeFiltered d 0 stored refused).intentMove d (intentOf stored) =
        { s.storeFiltered d 0 stored refused with slots := slots }) :
    exec (.hostIntentWrite d v l) s = .next ((s.storeFiltered d 0 stored
        (fieldsDiffer 0 (mergeLanes l v (s.dist d).words[(0 : Fin 5)]) stored)).intentMove d (intentOf stored)) := by
  rw [exec_hostIntentWrite_of_passes hf hp hs]
  generalize fieldsDiffer 0 (mergeLanes l v (s.dist d).words[(0 : Fin 5)]) stored = refused
  obtain ⟨slots, hu⟩ := hu refused
  have hx : State.dist { s.storeFiltered d 0 stored refused with slots := slots } d =
      (s.dist d).storing 0 stored refused := s.dist_storeFiltered_same d 0 stored refused
  rw [hu, State.reloadWord_of_valid _ d 0 (by rw [hx]; exact hi)]
  rw [s.finish_of_same d _ (by rw [hx]; rfl) (by simp) (by simp)]

/-- The writes that R11, R13 and R14 give no move, by their merged intent. -/
def District.MovesNot (x : District) (i : Word) : Prop :=
  (i = 1 ∨ i = 2) ∧ x.state ≠ .off ∧ x.state ≠ .stopped ∧ x.nodeField ≠ 0
    ∨ i = 2 ∧ x.state = .stopped ∧ x.nodeField ≠ 0
    ∨ (i = 0 ∨ i = 3) ∧ (x.state = .tripped ∨ x.state = .lockout ∨ x.state = .locked ∨ x.state = .checkHold
      ∨ x.state = .unreachable ∨ x.state = .off)

/-- In TRIPPED the stored intent is not ON or ON_MANUAL exactly if the code is 0 or 3. -/
theorem District.withdraws_of_tripped {x : District} {m : Word} (h : x.MovesNot (m &&& 3))
    (ht : x.state = .tripped) (hi : x.invalid = false) :
    (!(intentOf (x.filterIntent m)).energising) = decide (m &&& 3 = 0 ∨ m &&& 3 = 3) := by
  rcases h with ⟨hm, -, -, hn⟩ | ⟨-, hs, -⟩ | ⟨hm, -⟩
  · have hacc : x.refusesOn = false := x.refusesOn_eq_false_iff.mpr (by simp [ht, hi, hn])
    rw [x.filterIntent_of_accepted hm hacc]
    rcases hm with hm | hm
    · rw [intentOf_of_one hm, hm]; rfl
    · rw [intentOf_of_two hm, hm]; rfl
  · rw [hs] at ht; cases ht
  · rw [x.intentOf_filterIntent_of_off hm, decide_eq_true hm]; rfl

/-- In the other states the stored intent moves nothing. -/
theorem State.intentMove_of_movesNot (t : State) (d : DistrictId) {x : District} {m : Word}
    (hx : (t.dist d).state = x.state) (h : x.MovesNot (m &&& 3)) (ht : x.state ≠ .tripped)
    (hi : x.invalid = false) : t.intentMove d (intentOf (x.filterIntent m)) = t := by
  rw [← hx] at ht
  rcases h with ⟨hm, hoff, hstop, hn⟩ | ⟨hm, hs, hn⟩ | ⟨hm, hs⟩
  · cases hr : x.refusesOn with
    | true =>
      have hs : x.state = .lockout ∨ x.state = .locked ∨ x.state = .checkHold := by
        simpa [District.refusesOn, hi, hn, or_assoc] using hr
      rw [x.intentOf_filterIntent_of_refused m hr]
      refine t.intentMove_stays_off d ?_ ht
      rcases hs with hs | hs | hs <;> rw [hx, hs] <;> rfl
    | false =>
      rw [x.filterIntent_of_accepted hm hr]
      refine t.intentMove_stays_on d _ (hx ▸ hoff) ht ?_
      exact hm.symm.imp intentOf_of_two (fun hm => ⟨intentOf_of_one hm, hx ▸ hstop⟩)
  · have hacc : x.refusesOn = false := x.refusesOn_eq_false_iff.mpr (by simp [hs, hi, hn])
    rw [x.filterIntent_of_accepted (.inr hm) hacc]
    exact t.intentMove_stays_on d _ (by rw [hx, hs]; decide) ht (.inl (intentOf_of_two hm))
  · rw [x.intentOf_filterIntent_of_off hm]
    refine t.intentMove_stays_off d ?_ ht
    rcases hs with hs | hs | hs | hs | hs | hs <;> rw [hx, hs] <;> rfl

/-- Settles O16, by whether d is TRIPPED. -/
theorem hostIntentWriteOtherwiseKeepsState : Obligations.HostIntentWriteOtherwiseKeepsState := by
  intro s d v l i hf hp hi hm hc
  have hx := s.dist_storeFiltered_same d 0
  subst hm
  by_cases ht : (s.dist d).state = .tripped
  · have hmove : ∀ (stored : Word) (refused : Bool),
        (s.storeFiltered d 0 stored refused).intentMove d (intentOf stored) =
          (s.storeFiltered d 0 stored refused).setWithdrawn d (!(intentOf stored).energising) :=
      fun stored refused => State.intentMove_tripped _ d _ (by rw [hx]; exact ht)
    rw [exec_hostIntentWrite_of_stays hf hp hi rfl (fun refused => ⟨_, by
      rw [hmove]
      exact State.setWithdrawn_eq _ _ _⟩), hmove, District.withdraws_of_tripped hc ht hi]
    refine ⟨_, rfl, ?_, ?_, ?_, ?_, fun n _ hn => ?_, fun h => absurd ht h⟩
    iterate 4 · simp
    · rw [State.members_setWithdrawn _ _ _ n (by rw [hx]; exact hn), State.slot, State.slots_storeFiltered]
      rfl
  · have hmove := fun refused => State.intentMove_of_movesNot
      (s.storeFiltered d 0 ((s.dist d).filterIntent (mergeLanes l v (s.dist d).words[(0 : Fin 5)])) refused) d
      (by rw [hx]; rfl) hc ht hi
    rw [exec_hostIntentWrite_of_stays hf hp hi rfl (fun refused => ⟨_, hmove refused⟩), hmove]
    refine ⟨_, rfl, ?_, ?_, ?_, ?_, fun n h => absurd h ht, fun _ => ?_⟩
    all_goals simp

end Sys2Proof.Machine
end

section
/-! SUPPORT. Writes of words 1 to 4: the mapping judged (R3), and the reload of an invalid context (R23). -/

namespace Sys2Proof.Machine

open Sys2Proof

/-! ### A write of words 1 to 4 (R136, R139, R140) -/

/-- A write of one of words 1 to 4 whose reading passes its check: the filtered word stored, a changed mapping
judged, the reload, and the end of the claim. -/
theorem exec_districtWordWrite_of_passes {s : State} {d : DistrictId} {i : Fin 4} {w : Fin 5} {v : Word} {l : Lanes}
    {m : Word} (hf : s.faceFree) (hp : s.passes d) (hw : w = i.succ) (hm : m = mergeLanes l v (s.dist d).words[w]) :
    exec (.districtWordWrite d i v l) s = .next (s.finish d
      ((if w = 1 ∧ mappingChanged (s.dist d).words[w] (s.filterWord d w m) then
          (s.storeFiltered d w (s.filterWord d w m) (s.wordRefused d w m)).changeMapping d
        else s.storeFiltered d w (s.filterWord d w m) (s.wordRefused d w m)).reloadWord d w)) := by
  subst hw hm
  have h : exec (.districtWordWrite d i v l) s =
      .next (s.running (State.hostWrite (.district d i.succ) v l (State.writeDistrictWord d i.succ v l))) := rfl
  rw [h, s.running_hostWrite _ v l _ hf, State.writeDistrictWord, s.readForWrite_of_passes d hp]

/-! ### The mapping (R3, R140) -/

@[simp] theorem nodeOfField_zero : nodeOfField 0 = .none := rfl

@[simp] theorem nodeOfField_succ (k : NodeId) : nodeOfField (k.val + 1) = some k := by
  have h : 1 ≤ k.val + 1 ∧ k.val + 1 ≤ 8 := by omega
  rw [nodeOfField, dif_pos h]
  rfl

/-- Word 1 passes R140 when its node exists and no other copy holds the pair it names. -/
theorem State.mappingFails_of_free (s : State) (d : DistrictId) {m : Word} (hn : field m 0 4 ≤ 8)
    (hpair : field m 0 4 = 0 ∨ ∀ e : DistrictId, e ≠ d →
      ¬(field (s.dist e).words[(1 : Fin 5)] 0 4 = field m 0 4
        ∧ field (s.dist e).words[(1 : Fin 5)] 4 2 = field m 4 2)) : s.mappingFails d 1 m = false := by
  have h8 : ¬8 < field m 0 4 := by omega
  rcases hpair with h0 | hpair
  · simp [State.mappingFails, h0]
  · have ht : s.pairTaken d m = false := by
      simpa [State.pairTaken, District.nodeField] using hpair
    simp [State.mappingFails, h8, ht]

/-- An accepted word 1 is stored as written: no clamp is on it. -/
theorem State.filterWord_mapping (s : State) (d : DistrictId) {m : Word} (ha : (s.dist d).acceptsWords = true)
    (hm : s.mappingFails d 1 m = false) : s.filterWord d 1 m = m ∧ s.wordRefused d 1 m = false := by
  have hw : s.filterWord d 1 m = m := by
    rw [State.filterWord, ha, hm]
    rfl
  exact ⟨hw, by rw [State.wordRefused, hw, hm, fieldsDiffer_self, Bool.and_false]; rfl⟩

/-- What a judgement can do (R3). -/
theorem State.judgeMapping_cases (s : State) (d : DistrictId) :
    s.judgeMapping d = s ∨ s.judgeMapping d = s.enterQueued d false ∨ s.judgeMapping d = s.enter d .off
      ∨ s.judgeMapping d = ((s.enter d .off).setIntentOff d).mark (.district d 0) := by
  unfold State.judgeMapping
  split
  · split
    · split
      · split
        · exact .inr (.inl rfl)
        · exact .inr (.inr (.inl rfl))
      · exact .inl rfl
    · split
      · exact .inr (.inr (.inr rfl))
      · exact .inr (.inr (.inl rfl))
  all_goals exact .inl rfl

/-- A judgement touches neither the current, nor word 1, nor the context-invalid flag. -/
theorem State.judgeMapping_keeps (s : State) (d : DistrictId) :
    ((s.judgeMapping d).dist d).current = (s.dist d).current
      ∧ ((s.judgeMapping d).dist d).words[(1 : Fin 5)] = (s.dist d).words[(1 : Fin 5)]
      ∧ ((s.judgeMapping d).dist d).invalid = (s.dist d).invalid := by
  rcases s.judgeMapping_cases d with h | h | h | h <;> rw [h]
  · exact ⟨rfl, rfl, rfl⟩
  · rw [State.dist_enterQueued_same]
    exact ⟨rfl, rfl, rfl⟩
  · rw [State.dist_enter_same]
    exact ⟨rfl, rfl, rfl⟩
  · rw [State.dist_mark, State.dist_setIntentOff_same, State.dist_enter_same]
    exact ⟨rfl, get_put_other _ _ _ _ (by decide), rfl⟩

theorem Intent.energising_iff (i : Intent) : i.energising = true ↔ i ≠ .off := by cases i <;> decide

/-- Only UNREACHABLE is judged (R3). -/
theorem State.judgeMapping_of_reachable (s : State) (d : DistrictId) (h : (s.dist d).state ≠ .unreachable) :
    s.judgeMapping d = s := by
  unfold State.judgeMapping
  split
  · next hs => exact absurd hs h
  all_goals rfl

/-- An UNREACHABLE district without a mapping goes to OFF, and an ON or ON_MANUAL intent with it. -/
theorem State.judgeMapping_of_unmapped (s : State) (d : DistrictId) (h : (s.dist d).state = .unreachable)
    (hn : (s.dist d).node = .none) (hi : (s.dist d).invalid = false) :
    ((s.judgeMapping d).dist d).state = .off ∧ (s.judgeMapping d).queue = s.queue
      ∧ ((s.judgeMapping d).dist d).intent = .off
      ∧ ((s.dist d).intent ≠ .off → IntentPos.district d 0 ∈ (s.judgeMapping d).corrections) := by
  by_cases he : (s.dist d).intent = .off
  · have hj : s.judgeMapping d = s.enter d .off := by
      simp [State.judgeMapping, h, hn, he, Intent.energising]
    rw [hj, State.dist_enter_same]
    exact ⟨rfl, rfl, he, fun hne => absurd he hne⟩
  · have hj : s.judgeMapping d = ((s.enter d .off).setIntentOff d).mark (.district d 0) := by
      simp [State.judgeMapping, h, hn, (Intent.energising_iff _).mpr he]
    have hv : ((s.enter d .off).setIntentOff d).ofInvalid (.district d 0) = false := by
      rw [State.ofInvalid, State.dist_setIntentOff_same, State.dist_enter_same]
      exact hi
    refine ⟨?_, ?_, ?_, fun _ => ?_⟩ <;> rw [hj]
    · rw [State.dist_mark, State.dist_setIntentOff_same, State.dist_enter_same]
      rfl
    · rw [State.queue_mark]
      rfl
    · rw [State.dist_mark, State.dist_setIntentOff_same, District.intent_setWord_clear]
    · exact (State.mem_corrections_mark _ _ _).mpr (.inr ⟨rfl, hv⟩)

theorem State.judgeMapping_of_absent (s : State) (d : DistrictId) (k : NodeId)
    (h : (s.dist d).state = .unreachable) (hn : (s.dist d).node = some k) (hk : (s.node k).state ≠ .present) :
    s.judgeMapping d = s := by
  simp [State.judgeMapping, h, hn, hk]

theorem State.judgeMapping_of_present_off (s : State) (d : DistrictId) (k : NodeId)
    (h : (s.dist d).state = .unreachable) (hn : (s.dist d).node = some k) (hk : (s.node k).state = .present)
    (hi : (s.dist d).intent = .off) : s.judgeMapping d = s.enter d .off := by
  simp [State.judgeMapping, h, hn, hk, hi, Intent.energising]

theorem State.judgeMapping_of_present_on (s : State) (d : DistrictId) (k : NodeId)
    (h : (s.dist d).state = .unreachable) (hn : (s.dist d).node = some k) (hk : (s.node k).state = .present)
    (hi : (s.dist d).intent ≠ .off) : s.judgeMapping d = s.enterQueued d false := by
  simp [State.judgeMapping, h, hn, hk, (Intent.energising_iff _).mpr hi]

/-- Settles O19, by the rows of the judgement of R3. -/
theorem mappingChangeJudgesDistrict : Obligations.MappingChangeJudgesDistrict := by
  intro s d v l m hf hp hi hs hm hn hpair hchg
  have hacc : (s.dist d).acceptsWords = true := by
    rcases hs with hs | hs | hs <;> rw [District.acceptsWords, hs] <;> exact Bool.or_true _
  obtain ⟨hstored, hrefused⟩ := s.filterWord_mapping d hacc (s.mappingFails_of_free d hn hpair)
  have hx : exec (.districtWordWrite d 0 v l) s = .next (s.finish d
      (((s.storeFiltered d 1 m false).changeMapping d).reloadWord d 1)) := by
    rw [exec_districtWordWrite_of_passes hf hp (show (1 : Fin 5) = (0 : Fin 4).succ from rfl) hm, hstored, hrefused,
      if_pos ⟨rfl, by simpa [mappingChanged] using hchg.symm⟩]
  have ht : (((s.storeFiltered d 1 m false).modDist d (fun x => { x with current := 0 })).dist d) =
      { (s.dist d).storing 1 m false with current := 0 } := by
    rw [State.dist_modDist_same, State.dist_storeFiltered_same]
  have hq : ((s.storeFiltered d 1 m false).modDist d (fun x => { x with current := 0 })).queue = s.queue := by simp
  have hk : ∀ k : NodeId, ((s.storeFiltered d 1 m false).modDist d (fun x => { x with current := 0 })).node k =
      s.node k := by simp
  rw [State.changeMapping] at hx
  generalize (s.storeFiltered d 1 m false).modDist d (fun x => { x with current := 0 }) = t at hx ht hq hk
  have hword : (t.dist d).words[(1 : Fin 5)] = m := by
    rw [ht]
    exact District.storing_word _ 1 m false
  have hstate : (t.dist d).state = (s.dist d).state := by rw [ht]; rfl
  have hinv : (t.dist d).invalid = false := by rw [ht]; exact hi
  have hintent : (t.dist d).intent = (s.dist d).intent := by
    rw [ht]
    exact congrArg intentOf ((s.dist d).storing_word_other 1 0 m false (by decide))
  have hnode : (t.dist d).node = nodeOfField (field m 0 4) := by rw [← hword]; rfl
  obtain ⟨hcurrent, hword', hinv'⟩ := t.judgeMapping_keeps d
  rw [State.reloadWord_of_valid _ d 1 (hinv'.trans hinv)] at hx
  rw [← hstate, ← hintent, ← hq]
  refine ⟨_, hx, hcurrent.trans (by rw [ht]), hword'.trans hword, fun hne => ?_, fun hun =>
    ⟨fun h0 => t.judgeMapping_of_unmapped d hun (by rw [hnode, h0, nodeOfField_zero]) hinv,
      fun k hf hn => ?_, fun k hf hn hoff => ?_, fun k hf hn hon => ?_⟩⟩
  · rw [t.judgeMapping_of_reachable d hne]
    exact ⟨rfl, rfl⟩
  all_goals
    have hnode' : (t.dist d).node = some k := by rw [hnode, hf, nodeOfField_succ]
    rw [← hk] at hn
  · rw [t.judgeMapping_of_absent d k hun hnode' hn]
    exact ⟨hun, rfl⟩
  · rw [t.judgeMapping_of_present_off d k hun hnode' hn hoff, State.dist_enter_same]
    exact ⟨rfl, rfl⟩
  · rw [t.judgeMapping_of_present_on d k hun hnode' hn hon, State.dist_enterQueued_same]
    exact ⟨rfl, rfl, insertAfterLast_perm _ d t.queue⟩

/-! ### The reload (R23, R24) -/

/-- A reload of an invalid context in CHECK_HOLD or LOCKED: what it makes of the flag, the set and the state, and
that it leaves the words and the queue. -/
theorem State.reloadWord_spec (s : State) (d : DistrictId) (w : Fin 5) (hi : (s.dist d).invalid = true)
    (hs : (s.dist d).state = .checkHold ∨ (s.dist d).state = .locked) :
    ((s.dist d).reload ||| BitVec.twoPow 5 w.val ≠ 0b11111 →
        ((s.reloadWord d w).dist d).invalid = true
        ∧ ((s.reloadWord d w).dist d).reload = (s.dist d).reload ||| BitVec.twoPow 5 w.val
        ∧ ((s.reloadWord d w).dist d).state = (s.dist d).state)
      ∧ ((s.dist d).reload ||| BitVec.twoPow 5 w.val = 0b11111 →
        ((s.reloadWord d w).dist d).invalid = false ∧ ((s.reloadWord d w).dist d).reload = 0
        ∧ ((s.reloadWord d w).dist d).codeAgrees = true
        ∧ ((s.dist d).state = .checkHold → ((s.reloadWord d w).dist d).state = .off)
        ∧ ((s.dist d).state = .locked → ((s.reloadWord d w).dist d).state = .locked))
      ∧ ((s.reloadWord d w).dist d).words = (s.dist d).words ∧ (s.reloadWord d w).queue = s.queue := by
  by_cases hr : (s.dist d).reload ||| BitVec.twoPow 5 w.val = 0b11111
  · rcases hs with hs | hs
    · have hne : (s.dist d).state ≠ .locked := by rw [hs]; decide
      rw [s.reloadWord_of_complete_checkHold d w hi hr hs, State.dist_enter_same, State.dist_modDist_same]
      exact ⟨fun h => absurd hr h, fun _ => ⟨rfl, rfl, rfl, fun _ => rfl, fun h => absurd h hne⟩, rfl, rfl⟩
    · have hne : (s.dist d).state ≠ .checkHold := by rw [hs]; decide
      rw [s.reloadWord_of_complete d w hi hr hne, State.dist_modDist_same]
      exact ⟨fun h => absurd hr h, fun _ => ⟨rfl, rfl, rfl, fun h => absurd h hne, fun h => h⟩, rfl, rfl⟩
  · rw [s.reloadWord_of_partial d w hi hr, State.dist_modDist_same]
    exact ⟨fun _ => ⟨hi, rfl, rfl⟩, fun h => absurd h hr, rfl, rfl⟩

/-- A write to an invalid context in CHECK_HOLD or LOCKED stores its word and then reloads: the stored word moves
no state and leaves the flag, the set and the queue, and a word 0 is stored with the intent OFF. -/
theorem exec_write_of_invalid {s : State} {d : DistrictId} {w : Fin 5} {v : Word} {l : Lanes} {c : Instr}
    (hf : s.faceFree) (hi : (s.dist d).invalid = true)
    (hs : (s.dist d).state = .checkHold ∨ (s.dist d).state = .locked)
    (hc : w = 0 ∧ c = .hostIntentWrite d v l ∨ ∃ i : Fin 4, w = i.succ ∧ c = .districtWordWrite d i v l) :
    ∃ t : State, exec c s = .next (s.finish d (t.reloadWord d w)) ∧ (t.dist d).invalid = true
      ∧ (t.dist d).reload = (s.dist d).reload ∧ (t.dist d).state = (s.dist d).state
      ∧ (w = 0 → (t.dist d).intent = .off) ∧ t.queue = s.queue := by
  have hp : s.passes d := s.checkFails_of_invalid d hi
  rcases hc with ⟨rfl, rfl⟩ | ⟨i, hw, rfl⟩
  · have href : (s.dist d).refusesOn = true := by simp [District.refusesOn, hi]
    have hoff := (s.dist d).intentOf_filterIntent_of_refused (mergeLanes l v (s.dist d).words[(0 : Fin 5)]) href
    rw [exec_hostIntentWrite_of_passes hf hp rfl, hoff, State.intentMove_stays_off]
    · refine ⟨_, rfl, ?_⟩
      rw [State.dist_storeFiltered_same]
      exact ⟨hi, rfl, rfl, fun _ => (congrArg intentOf (District.storing_word _ 0 _ _)).trans hoff,
        State.queue_storeFiltered _ _ _ _ _⟩
    all_goals
      rw [State.dist_storeFiltered_same, District.storing_state]
      rcases hs with hs | hs <;> rw [hs] <;> decide
  · have hw0 : w ≠ 0 := hw ▸ Fin.succ_ne_zero i
    rw [exec_districtWordWrite_of_passes hf hp hw rfl]
    refine ⟨_, rfl, ?_⟩
    split
    · rw [State.changeMapping, State.judgeMapping_of_reachable, State.dist_modDist_same,
        State.dist_storeFiltered_same]
      · exact ⟨hi, rfl, rfl, fun h => absurd h hw0, State.queue_storeFiltered _ _ _ _ _⟩
      · rw [State.dist_modDist_same, State.dist_storeFiltered_same]
        rcases hs with hs | hs <;> simp [hs]
    · rw [State.dist_storeFiltered_same]
      exact ⟨hi, rfl, rfl, fun h => absurd h hw0, State.queue_storeFiltered _ _ _ _ _⟩

/-- Settles O20: the word is stored with no move, and the reload does the rest. -/
theorem reloadCompletesWithFifthWord : Obligations.ReloadCompletesWithFifthWord := by
  intro s d w v l c hf hi hs hc
  obtain ⟨t, hx, hinv, hreload, hstate, hoff, hqueue⟩ := exec_write_of_invalid hf hi hs hc
  obtain ⟨hpartial, hcomplete, hwords, hq⟩ := t.reloadWord_spec d w hinv (by rw [hstate]; exact hs)
  rw [hreload, hstate] at hpartial hcomplete
  exact ⟨_, hx, hpartial, hcomplete, fun hw => (by rw [District.intent, hwords]; exact hoff hw), hq.trans hqueue⟩

end Sys2Proof.Machine
end

section
/-! SUPPORT. The hold-off expiry and the notice that follows it (R18, R35, R46, R47). -/

namespace Sys2Proof.Machine

open Sys2Proof

/-! ### The expiry (R18) -/

theorem exec_holdoffExpiry_of_running {s : State} {d : DistrictId} (hr : s.inReset = false) (hp : s.passes d)
    (hs : (s.dist d).state = .holdoff) (ht : (s.dist d).holdoffTimer.isSome = true) :
    exec (.holdoffExpiry d) s = .next (s.finish d (s.leaveHoldoff d)) := by
  have h : exec (.holdoffExpiry d) s = .next (s.running (State.holdoffExpires d)) := rfl
  rw [h, s.running_of_run _ hr, State.holdoffExpires, if_pos ⟨hs, ht⟩, s.claim_of_passes d _ hp]

/-- A timer that does not run does not expire (log 2). -/
theorem exec_holdoffExpiry_of_stopped {s : State} {d : DistrictId} (hr : s.inReset = false)
    (ht : (s.dist d).holdoffTimer = .none) : exec (.holdoffExpiry d) s = .next s := by
  have h : exec (.holdoffExpiry d) s = .next (s.running (State.holdoffExpires d)) := rfl
  rw [h, s.running_of_run _ hr, State.holdoffExpires, if_neg (by simp [ht])]

theorem State.leaveHoldoff_of_suspect (s : State) (d : DistrictId)
    (h : (s.dist d).incidentSlot.isSome = true ∧ (s.dist d).role = .suspect) :
    s.leaveHoldoff d = s.enter d .gated :=
  if_pos h

theorem State.leaveHoldoff_of_other (s : State) (d : DistrictId)
    (h : ¬((s.dist d).incidentSlot.isSome = true ∧ (s.dist d).role = .suspect)) :
    s.leaveHoldoff d = s.enterQueued d true :=
  if_neg h

/-- Leaving HOLDOFF, by the district's part in its incident (R18, R35). -/
theorem State.leaveHoldoff_spec (s : State) (d : DistrictId) :
    ((s.dist d).incidentSlot.isSome = true ∧ (s.dist d).role = .suspect →
        ((s.leaveHoldoff d).dist d).state = .gated ∧ ((s.leaveHoldoff d).dist d).mark = false
          ∧ (s.leaveHoldoff d).queue = s.queue)
      ∧ (¬((s.dist d).incidentSlot.isSome = true ∧ (s.dist d).role = .suspect) →
        ((s.leaveHoldoff d).dist d).state = .queued ∧ ((s.leaveHoldoff d).dist d).mark = true
          ∧ ∃ before after : List DistrictId, s.queue = before ++ after
            ∧ (s.leaveHoldoff d).queue = before ++ d :: after
            ∧ (∀ q ∈ after, (s.dist d).priority < (s.dist q).priority)
            ∧ (∀ q ∈ before.getLast?, (s.dist q).priority ≤ (s.dist d).priority))
      ∧ ((s.leaveHoldoff d).dist d).level = 0 ∧ ((s.leaveHoldoff d).dist d).holdoffTimer = .none
      ∧ ((s.leaveHoldoff d).dist d).attempts = (s.dist d).attempts ∧ (s.leaveHoldoff d).engines = s.engines
      ∧ (s.leaveHoldoff d).feeds = s.feeds ∧ (s.leaveHoldoff d).slots = s.slots
      ∧ (∀ e : DistrictId, e ≠ d → (s.leaveHoldoff d).dist e = s.dist e) ∧ (s.leaveHoldoff d).mem = s.mem := by
  by_cases h : (s.dist d).incidentSlot.isSome = true ∧ (s.dist d).role = .suspect
  · rw [s.leaveHoldoff_of_suspect d h, State.dist_enter_same]
    exact ⟨fun _ => ⟨rfl, rfl, rfl⟩, fun hn => absurd h hn, rfl, rfl, rfl, rfl, rfl, rfl,
      fun e he => s.dist_enter_other d e _ he, rfl⟩
  · obtain ⟨before, after, ⟨hq, ha, hb⟩, hu⟩ := s.enterQueued_place d true
    have hqueue : (s.enterQueued d true).queue = before ++ d :: after := by rw [hu]
    rw [s.leaveHoldoff_of_other d h, State.dist_enterQueued_same]
    exact ⟨fun hn => absurd hn h, fun _ => ⟨rfl, rfl, before, after, hq, hqueue, ha, hb⟩, rfl, rfl, rfl, rfl,
      rfl, rfl, fun e he => s.dist_enterQueued_other d e _ he, rfl⟩

/-! ### The suspect gate (R46, R47) -/

/-- The model's test of an entry is that of R46. -/
theorem State.shutsGate_iff (s : State) (m : Member) : s.shutsGate m = true ↔ ShutsGate s m := by
  unfold State.shutsGate ShutsGate
  cases hr : m.role <;> simp [or_assoc]

/-- A member that shuts the gate is in no settled state. -/
theorem ShutsGate.not_settled {s : State} {m : Member} (h : ShutsGate s m) :
    (s.dist m.district).state.settled = false := by
  rcases h with ⟨h | h | ⟨h, -⟩, -⟩ | ⟨h | h, -⟩ <;> rw [h] <;> rfl

theorem State.gateOpen_iff (s : State) (n : SlotId) :
    s.gateOpen n = true ↔ ∀ m ∈ (s.slot n).members, ¬ShutsGate s m := by
  simp [State.gateOpen, s.shutsGate_iff]

theorem State.allSettled_eq_false {s : State} {n : SlotId} {m : Member} (hm : m ∈ (s.slot n).members)
    (h : (s.dist m.district).state.settled = false) : s.allSettled n = false := by
  rw [State.allSettled, List.all_eq_false]
  exact ⟨m, hm, by simp [h]⟩

/-- A slot whose gate a member shuts stands: that member is not settled either. -/
theorem settleSlot_of_shutsGate (k : Nat) {n : SlotId} {s : State} {m : Member} (hm : m ∈ (s.slot n).members)
    (h : ShutsGate s m) : settleSlot (k + 1) n s = s :=
  settleSlot_of_shut k n s (State.allSettled_eq_false hm h.not_settled)
    (eq_false_of_ne_true (fun ho => (s.gateOpen_iff n).mp ho m hm h))

/-- What R46 says of an entry depends on its district's context alone. -/
theorem shutsGate_congr {s t : State} {m : Member} (h : t.dist m.district = s.dist m.district) :
    ShutsGate t m ↔ ShutsGate s m := by
  unfold ShutsGate
  rw [h]

/-- A GATED district shuts no gate. -/
theorem not_shutsGate_of_gated {s : State} {m : Member} (h : (s.dist m.district).state = .gated) :
    ¬ShutsGate s m := by
  simp [ShutsGate, h]

/-- The first GATED suspect is d when no other before d in the suspect order is GATED. -/
theorem State.firstGated_of_split (s : State) (n : SlotId) (d : DistrictId) (pre post : List DistrictId)
    (hl : (s.slot n).suspects = pre ++ d :: post) (hd : (s.dist d).state = .gated)
    (hpre : ∀ q ∈ pre, q ≠ d → (s.dist q).state ≠ .gated) : s.firstGated n = some d := by
  rw [State.firstGated, hl, List.find?_append]
  cases hf : pre.find? (fun q => (s.dist q).state == .gated) with
  | none => simp [hd]
  | some q =>
    have hg : (s.dist q).state = .gated := by simpa using List.find?_some hf
    have hq : q = d := by
      by_contra hne
      exact hpre q (List.mem_of_find?_eq_some hf) hne hg
    rw [hq]
    rfl

theorem State.releaseSuspect_of_passes (s : State) (d : DistrictId) (hp : s.passes d) :
    s.releaseSuspect d = s.enterQueued d true := by
  have h : s.checkFails d = false := hp
  simp [State.releaseSuspect, h]

/-! ### The contexts of a member that leaves HOLDOFF -/

/-- A member keeps its role (R35). -/
theorem District.dropsRole_of_member {x : District} {n : SlotId} (h : x.incidentSlot = some n) :
    x.dropsRole = false := by
  simp [District.dropsRole, h]

theorem District.enter_queued_of_member (c : Control) {x : District} {n : SlotId} (recovering : Bool)
    (h : x.incidentSlot = some n) : ({ x with mark := recovering } : District).enter c .queued =
      { x with
        state := .queued
        level := 0
        mark := recovering
        holdoffTimer := .none
        provingTimer := .none
        quietTimer := .none } := by
  have hrole : ({ x with mark := recovering } : District).dropsRole = false := District.dropsRole_of_member h
  rw [District.enter_queued, hrole]
  rfl

/-- A member's context as it leaves HOLDOFF through GATED for QUEUED (R47). -/
theorem District.enter_queued_of_gated_member (c : Control) {x : District} {n : SlotId}
    (h : x.incidentSlot = some n) : ({ x.enter c .gated with mark := true } : District).enter c .queued =
      { x with
        state := .queued
        level := 0
        mark := true
        holdoffTimer := .none
        provingTimer := .none
        quietTimer := .none } := by
  rw [District.enter_queued_of_member (x := x.enter c .gated) c true h, District.enter_gated,
    District.dropsRole_of_member h]
  rfl

theorem State.enter_gated_of_member (s : State) (d : DistrictId) {n : SlotId}
    (h : (s.dist d).incidentSlot = some n) : s.enter d .gated = s.modDist d (fun x =>
      { x with
        state := .gated
        level := 0
        mark := false
        holdoffTimer := .none
        provingTimer := .none
        quietTimer := .none }) :=
  s.modDist_congr d (by rw [District.enter_gated, District.dropsRole_of_member h]; rfl)

/-- A GATED member released: what becomes of its context, and its place in the queue (R47). -/
theorem State.enterQueued_of_gated_member (s : State) (d : DistrictId) {n : SlotId}
    (h : (s.dist d).incidentSlot = some n) : ∃ before after : List DistrictId, NormalPlace s d before after
      ∧ (s.enter d .gated).enterQueued d true =
        { s.modDist d (fun x =>
            { x with
              state := .queued
              level := 0
              mark := true
              holdoffTimer := .none
              provingTimer := .none
              quietTimer := .none }) with queue := before ++ d :: after } := by
  obtain ⟨before, after, ⟨hq, ha, hb⟩, hu⟩ := (s.enter d .gated).enterQueued_place d true
  have hp : ∀ q : DistrictId, ((s.enter d .gated).dist q).priority = (s.dist q).priority :=
    fun q => s.priority_modDist d q _ rfl
  simp only [hp] at ha hb
  refine ⟨before, after, ⟨hq, ha, hb⟩, ?_⟩
  rw [hu, State.enter, State.modDist_modDist, State.modDist, State.modDist_control,
    District.enter_queued_of_gated_member s.control h]
  rfl

/-! ### The notice (R10, R46, R47) -/

theorem State.rescan_of_queue (before after : State) (h : after.queue ≠ before.queue) :
    before.rescan after = after.scan :=
  if_pos (.inl h)

/-- The notice of a SUSPECT member that goes to GATED. -/
theorem State.finish_enter_gated (s : State) (d : DistrictId) {n : SlotId} (hs : (s.dist d).state = .holdoff)
    (h : (s.dist d).incidentSlot = some n) :
    s.finish d (s.enter d .gated) = s.rescan (settleSlot 33 n (s.enter d .gated)) := by
  rw [State.finish, s.notify_of_member d _ n]
  · rw [hs, State.dist_enter_same, District.enter_state]
    decide
  · rw [State.dist_enter_same]
    exact h

/-- Another member shuts the gate: the suspect waits, and nothing else changes. -/
theorem State.finish_enter_gated_of_shut (s : State) (d : DistrictId) {n : SlotId}
    (hs : (s.dist d).state = .holdoff) (h : (s.dist d).incidentSlot = some n) {m : Member}
    (hm : m ∈ (s.slot n).members) (hne : m.district ≠ d) (hg : ShutsGate s m) :
    s.finish d (s.enter d .gated) = s.enter d .gated := by
  have hg' : ShutsGate (s.enter d .gated) m := (shutsGate_congr (s.dist_enter_other d _ _ hne)).mpr hg
  rw [s.finish_enter_gated d hs h, settleSlot_of_shutsGate (s := s.enter d .gated) 32 hm hg',
    s.rescan_of_same (s.enter d .gated) rfl rfl]

/-- No other member shuts the gate and no suspect before d is GATED: d is released at once, and as a restarting
member it shuts the gate behind itself. -/
theorem State.finish_enter_gated_of_open (s : State) (d : DistrictId) {n : SlotId} (hp : s.passes d)
    (hs : (s.dist d).state = .holdoff) (h : (s.dist d).incidentSlot = some n)
    (hr : (s.slot n).state = .recovering) {pre post : List DistrictId}
    (hopen : ∀ m ∈ (s.slot n).members, m.district ≠ d → ¬ShutsGate s m)
    {own : Member} (hm : own ∈ (s.slot n).members) (hd : own.district = d) (hrole : own.role = .suspect)
    (hl : (s.slot n).suspects = pre ++ d :: post) (hpre : ∀ q ∈ pre, (s.dist q).state ≠ .gated) :
    s.finish d (s.enter d .gated) = s.rescan ((s.enter d .gated).enterQueued d true) := by
  have hgated : ((s.enter d .gated).dist d).state = .gated := by rw [State.dist_enter_same]; rfl
  have hgate : (s.enter d .gated).gateOpen n = true := by
    refine (State.gateOpen_iff _ n).mpr (fun m hm => ?_)
    by_cases hne : m.district = d
    · exact not_shutsGate_of_gated (by rw [hne]; exact hgated)
    · rw [shutsGate_congr (s.dist_enter_other d _ _ hne)]
      exact hopen m hm hne
  have hfirst : (s.enter d .gated).firstGated n = some d :=
    State.firstGated_of_split _ n d pre post hl hgated
      (fun q hq hne => by rw [s.dist_enter_other d q _ hne]; exact hpre q hq)
  have hunsettled : (s.enter d .gated).allSettled n = false :=
    State.allSettled_eq_false (m := own) hm (by rw [hd, hgated]; rfl)
  have hpass : (s.enter d .gated).passes d := by
    rw [State.passes, State.checkFails, State.dist_enter_same]
    exact hp
  have hshut : ShutsGate ((s.enter d .gated).enterQueued d true) own := by
    refine .inl ⟨.inr (.inr ?_), by rw [hrole]; decide⟩
    rw [hd, State.dist_enterQueued_same]
    exact ⟨rfl, rfl⟩
  rw [s.finish_enter_gated d hs h, settleSlot_of_gated 32 n (s.enter d .gated) d hr hunsettled hgate hfirst,
    State.releaseSuspect_of_passes _ d hpass,
    settleSlot_of_shutsGate (s := (s.enter d .gated).enterQueued d true) 31 hm hshut]

/-- Settles O43, by the part d has in its incident and, for a suspect, by its gate. -/
theorem holdoffExpiryQueuesOrGatesDistrict : Obligations.HoldoffExpiryQueuesOrGatesDistrict := by
  intro s d hr hp
  refine ⟨fun hs ht => ⟨_, exec_holdoffExpiry_of_running hr hp hs ht, s.leaveHoldoff_spec d⟩,
    exec_holdoffExpiry_of_stopped hr, fun n hs ht hn hrole hrec => ?_⟩
  have hx : exec (.holdoffExpiry d) s = .next (s.finish d (s.enter d .gated)) := by
    rw [exec_holdoffExpiry_of_running hr hp hs ht, s.leaveHoldoff_of_suspect d ⟨by rw [hn]; rfl, hrole⟩]
  rw [hx]
  refine ⟨fun ⟨m, hm, hne, hg⟩ => ?_, fun pre post hopen ⟨own, hm, hd, hown⟩ hl hpre => ?_⟩
  · rw [s.finish_enter_gated_of_shut d hs hn hm hne hg, s.enter_gated_of_member d hn]
  · obtain ⟨before, after, hplace, hu⟩ := s.enterQueued_of_gated_member d hn
    refine ⟨before, after, hplace, ?_⟩
    have hqueue : before ++ d :: after ≠ s.queue := fun he => by
      have hlen := congrArg List.length (he.trans hplace.1)
      simp at hlen
    rw [s.finish_enter_gated_of_open d hp hs hn hrec hopen hm hd hown hl hpre, hu, s.rescan_of_queue _ hqueue]

end Sys2Proof.Machine
end

section
/-! SUPPORT. What a layout reset does outside the contexts: slots, Ring Writer, sequencing (R52, R104). -/

namespace Sys2Proof.Machine

open Sys2Proof

/-- An intent turned off touches the contexts and the marks alone. -/
theorem State.restIntent_eq (s : State) (d : DistrictId) :
    ∃ contexts marks, s.restIntent d = { s with districts := contexts, corrections := marks } := by
  unfold State.restIntent
  split
  · unfold State.mark
    split
    · exact ⟨_, _, rfl⟩
    · exact ⟨_, _, rfl⟩
  · exact ⟨_, _, rfl⟩

/-- Bringing the contexts to rest touches the contexts and the marks alone (R27). -/
theorem State.restDistricts_eq (s : State) :
    ∃ contexts marks, s.restDistricts = { s with districts := contexts, corrections := marks } := by
  unfold State.restDistricts
  refine foldl_keeps
    (P := fun t : State => ∃ contexts marks, t = { s with districts := contexts, corrections := marks })
    State.restIntent _ (fun d _ t ht => ?_) _ ⟨_, _, rfl⟩
  obtain ⟨contexts, marks, rfl⟩ := ht
  obtain ⟨contexts', marks', h⟩ := State.restIntent_eq { s with districts := contexts, corrections := marks } d
  exact ⟨contexts', marks', h⟩

/-- The missed count raised once for each item of a list: nothing else of the Ring Writer changes, and the count
stays at 255 (R167). -/
theorem foldl_raiseMissed_eq {α : Type} (l : List α) : ∀ r : RingWriter, r.missed ≤ 255 →
    l.foldl (fun r _ => r.raiseMissed) r = { r with missed := min (r.missed + l.length) 255 } := by
  induction l with
  | nil => intro r h; simp [Nat.min_eq_left h]
  | cons a l ih =>
    intro r h
    have hraised : r.raiseMissed.missed ≤ 255 := Nat.min_le_right _ _
    have hcount : min (min (r.missed + 1) 255 + l.length) 255 = min (r.missed + (l.length + 1)) 255 := by omega
    rw [List.foldl_cons, ih _ hraised, List.length_cons]
    simp only [RingWriter.raiseMissed, hcount]

/-- Raises of the missed count change nothing else, whatever the count. -/
theorem foldl_raiseMissed_keeps {α : Type} (l : List α) (r : RingWriter) :
    l.foldl (fun r _ => r.raiseMissed) r =
      { r with missed := (l.foldl (fun r _ => r.raiseMissed) r).missed } :=
  foldl_keeps (P := fun t => t = { r with missed := t.missed }) (fun r _ => r.raiseMissed) l
    (fun _ _ t ht => by rw [ht]; rfl) r rfl

/-- The Ring Writer after a layout reset: the missed count raised, no slot waiting, and the next record is to say
that a layout reset preceded it (R52, R167, R168). -/
theorem State.ring_layoutReset (s : State) : s.layoutReset.ring =
    { s.ring with
      missed := (s.occupiedSlots.foldl (fun r _ => r.raiseMissed) s.ring).missed
      closing := []
      layoutReset := true } := by
  have h : s.layoutReset.ring =
      { s.occupiedSlots.foldl (fun r _ => r.raiseMissed) s.ring with closing := [], layoutReset := true } := by
    obtain ⟨contexts, marks, h⟩ := s.restDistricts_eq
    rw [State.layoutReset, h]
    rfl
  rw [h, foldl_raiseMissed_keeps]

/-- Each discarded slot raises the missed count once (R52). -/
theorem State.missed_layoutReset (s : State) (h : s.ring.missed ≤ 255) :
    s.layoutReset.ring.missed = min (s.ring.missed + s.occupiedSlots.length) 255 := by
  rw [s.ring_layoutReset, foldl_raiseMissed_eq _ _ h]

/-- A slot after a layout reset (R52). -/
theorem State.slot_layoutReset (s : State) (n : SlotId) :
    s.layoutReset.slot n = if (s.slot n).state = .free then s.slot n else Slot.blank := by
  obtain ⟨contexts, marks, h⟩ := s.restDistricts_eq
  rw [State.layoutReset, h]
  exact get_tabulate _ n

theorem State.slot_layoutReset_free (s : State) (n : SlotId) : (s.layoutReset.slot n).state = .free := by
  rw [s.slot_layoutReset]
  split
  · next h => exact h
  · rfl

/-- An engine after a layout reset (R89). -/
theorem State.engine_layoutReset (s : State) (e : EngineId) : s.layoutReset.engine e =
    { s.engine e with district := .none, index := 0, stalls := 0, timer := .none } := by
  obtain ⟨contexts, marks, h⟩ := s.restDistricts_eq
  rw [State.layoutReset, h]
  exact get_tabulate _ e

/-- A feed after a layout reset (R104). -/
theorem State.feed_layoutReset (s : State) (k : FeedId) :
    s.layoutReset.feed k = { s.feed k with engaged := 0, history := [] } := by
  obtain ⟨contexts, marks, h⟩ := s.restDistricts_eq
  rw [State.layoutReset, h]
  exact get_tabulate _ k

/-- What a layout reset leaves as it is, and what it sets outside the tables. -/
theorem State.layoutReset_eq (s : State) : ∃ contexts marks slots ring engines feeds, s.layoutReset =
    { s with
      districts := contexts
      corrections := marks
      slots := slots
      ring := ring
      queue := []
      engines := engines
      feeds := feeds
      lastResetCause := .layout
      lastCommand := codeLayoutReset } := by
  obtain ⟨contexts, marks, h⟩ := s.restDistricts_eq
  rw [State.layoutReset, h]
  exact ⟨_, _, _, _, _, _, rfl⟩

/-- Settles O7, table by table, and by `State.layoutReset_eq` for what is kept. -/
theorem layoutResetRestsEveryUnit : Obligations.LayoutResetRestsEveryUnit := by
  intro s hr
  have hrun : exec .layoutReset s = .next (s.running State.layoutReset) := rfl
  have hopen : s.layoutReset.openCount = 0 := by
    simp [State.openCount, s.slot_layoutReset_free, SlotState.isOpen]
  have hslots (n : SlotId) (h : (s.slot n).state ≠ .free) : s.layoutReset.slot n = Slot.blank := by
    rw [s.slot_layoutReset, if_neg h]
  obtain ⟨contexts, marks, slots, ring, engines, feeds, hrest⟩ := s.layoutReset_eq
  rw [hrun, s.running_of_run _ hr]
  refine ⟨_, rfl, fun n => ⟨s.slot_layoutReset_free n, fun h => ?_⟩, hopen, ?_, ?_, ?_, s.missed_layoutReset,
    ?_, ?_, ?_, ?_, ?_, fun e => ?_, s.feed_layoutReset, ?_, ?_, ?_, ?_, ?_, ?_, ?_, ?_, ?_, ?_, ?_, ?_, ?_,
    ?_, ?_, fun p hp => (mem_corrections_layoutReset s p).mpr (.inl hp), ?_⟩
  · rw [hslots n h]
    exact ⟨rfl, rfl, rfl, rfl, rfl, rfl, rfl⟩
  · rw [hrest]
  -- the six other fields of the Ring Writer
  iterate 6 rw [s.ring_layoutReset]
  · rw [hrest]
  · rw [s.engine_layoutReset]
    exact ⟨rfl, rfl, rfl, rfl⟩
  -- the last reset cause, the last-command word, and what is kept
  all_goals rw [hrest]
  rfl

end Sys2Proof.Machine
end

section
/-! SUPPORT. What an operation at one district leaves of another: `Aside d s t` for the operations at a context,
`Apart d s t` where incidents may also have closed. -/

namespace Sys2Proof.Machine

open Sys2Proof

/-- What an operation at another district leaves of d: its context, its place in or out of the queue, the engine
that holds it, its marks, and its bit of the lockout sets. -/
structure Aside (d : DistrictId) (s t : State) : Prop where
  dist : t.dist d = s.dist d
  queue : d ∈ t.queue ↔ d ∈ s.queue
  engine : ∀ e, (s.engine e).district = some d ∨ (t.engine e).district = some d → t.engine e = s.engine e
  marks : ∀ w, IntentPos.district d w ∈ t.corrections ↔ IntentPos.district d w ∈ s.corrections
  lockouts : ∀ n, (s.slot n).lockouts.getLsbD d.val = true → (t.slot n).lockouts.getLsbD d.val = true

theorem Aside.refl (d : DistrictId) (s : State) : Aside d s s :=
  ⟨rfl, .rfl, fun _ _ => rfl, fun _ => .rfl, fun _ h => h⟩

theorem Aside.trans {d : DistrictId} {s t u : State} (h : Aside d s t) (g : Aside d t u) : Aside d s u where
  dist := g.dist.trans h.dist
  queue := g.queue.trans h.queue
  engine e he := by
    rcases he with he | he
    · have ht := h.engine e (.inl he)
      exact (g.engine e (.inl (ht ▸ he))).trans ht
    · have hu := g.engine e (.inr he)
      exact hu.trans (h.engine e (.inr (hu ▸ he)))
  marks w := (g.marks w).trans (h.marks w)
  lockouts n hn := g.lockouts n (h.lockouts n hn)

theorem aside_foldl {α : Type} {d : DistrictId} (f : State → α → State) (l : List α)
    (hf : ∀ a ∈ l, ∀ t, Aside d t (f t a)) (s : State) : Aside d s (l.foldl f s) :=
  foldl_keeps (P := Aside d s) f l (fun a ha t ht => ht.trans (hf a ha t)) s (.refl d s)

/-! ### Replacements -/

/-- The engine found for a district holds it. -/
theorem State.district_of_engineOf {s : State} {e : DistrictId} {i : EngineId} (h : s.engineOf e = some i) :
    (s.engine i).district = some e := by
  simpa using List.find?_some h

section
variable {d e : DistrictId} (he : e ≠ d) (s : State)

theorem aside_modSlot (n : SlotId) (f : Slot → Slot)
    (hf : (s.slot n).lockouts.getLsbD d.val = true → (f (s.slot n)).lockouts.getLsbD d.val = true) :
    Aside d s (s.modSlot n f) where
  dist := rfl
  queue := .rfl
  engine _ _ := rfl
  marks _ := .rfl
  lockouts m hm := by
    rw [State.slot_modSlot]
    split
    · next h => subst h; exact hf hm
    · exact hm

theorem aside_modFeed (k : FeedId) (f : Feed → Feed) : Aside d s (s.modFeed k f) :=
  ⟨rfl, .rfl, fun _ _ => rfl, fun _ => .rfl, fun _ h => h⟩

/-- An engine that holds d neither before nor after is no engine of d. -/
theorem aside_modEngine (i : EngineId) (f : Engine → Engine) (hs : (s.engine i).district ≠ some d)
    (hf : (f (s.engine i)).district ≠ some d) : Aside d s (s.modEngine i f) where
  dist := rfl
  queue := .rfl
  engine j hj := by
    refine s.engine_modEngine_other i f j (fun h => ?_)
    subst h
    rw [State.engine_modEngine_same] at hj
    exact hj.elim hs hf
  marks _ := .rfl
  lockouts _ h := h

theorem aside_queue (q : List DistrictId) (hq : d ∈ q ↔ d ∈ s.queue) : Aside d s { s with queue := q } :=
  ⟨rfl, hq, fun _ _ => rfl, fun _ => .rfl, fun _ h => h⟩

theorem aside_unmarkDistrict (h : e ≠ d) : Aside d s (s.unmarkDistrict e) :=
  ⟨rfl, .rfl, fun _ _ => rfl, fun w => by simp [s.mem_unmarkDistrict, h.symm], fun _ h => h⟩

include he

theorem aside_modDist (f : District → District) : Aside d s (s.modDist e f) :=
  ⟨s.dist_modDist_other e f d he.symm, .rfl, fun _ _ => rfl, fun _ => .rfl, fun _ h => h⟩

theorem aside_mark (w : Fin 5) : Aside d s (s.mark (.district e w)) where
  dist := s.dist_mark _ d
  queue := by rw [s.queue_mark]
  engine _ _ := by unfold State.mark; split <;> rfl
  marks v := by simp [s.mem_corrections_mark, he.symm]
  lockouts _ h := by unfold State.mark; split <;> exact h

/-! ### Operations at another district -/

theorem aside_enter (st : DistrictState) : Aside d s (s.enter e st) := aside_modDist he s _

theorem aside_setIntentOff : Aside d s (s.setIntentOff e) := aside_modDist he s _

theorem mem_insertAfterLast_other (P : DistrictId → Bool) (q : List DistrictId) :
    d ∈ insertAfterLast P e q ↔ d ∈ q := by
  rw [(insertAfterLast_perm P e q).mem_iff, List.mem_cons, or_iff_right he.symm]

theorem aside_enterQueued (b : Bool) : Aside d s (s.enterQueued e b) :=
  ((aside_modDist he s _).trans (aside_enter he _ _)).trans (aside_queue _ _ (mem_insertAfterLast_other he _ _))

theorem aside_returnToQueue : Aside d s (s.returnToQueue e) :=
  (aside_enter he s _).trans (aside_queue _ _ (mem_insertAfterLast_other he _ _))

omit he in
theorem aside_freeEngine (i : EngineId) (h : (s.engine i).district ≠ some d) : Aside d s (s.freeEngine i) :=
  (aside_modFeed s _ _).trans (aside_modEngine _ i _ h (by simp))

theorem aside_freeEngineOf : Aside d s (s.freeEngineOf e) := by
  unfold State.freeEngineOf
  split
  · next i h =>
    refine aside_freeEngine s i ?_
    rw [State.district_of_engineOf h]
    simpa using he
  · exact .refl d s

theorem aside_countAttempt : Aside d s (s.countAttempt e) := aside_modDist he s _

theorem aside_depart : Aside d s (s.depart e) :=
  (aside_freeEngineOf he s).trans (aside_queue _ _ (List.mem_erase_of_ne he.symm))

theorem aside_checkError : Aside d s (s.checkError e) := by
  unfold State.checkError
  refine Aside.trans ?_ (aside_unmarkDistrict _ he)
  refine Aside.trans ?_ (aside_modDist he _ _)
  split
  · exact .refl d s
  · exact (aside_depart he s).trans (aside_enter he _ _)

theorem aside_releaseSuspect : Aside d s (s.releaseSuspect e) := by
  unfold State.releaseSuspect
  split
  · exact aside_checkError he s
  · exact aside_enterQueued he s true

theorem aside_beginRamp (i : EngineId) (h : (s.engine i).district ≠ some d) :
    Aside d s (s.beginRamp i e) := by
  have hsome : some e ≠ some d := by simpa using he
  have htake : Aside d s (s.takeEngine i e) := by
    unfold State.takeEngine
    refine Aside.trans ?_ (aside_modFeed _ _ _)
    refine Aside.trans ?_ (aside_enter he _ _)
    exact (aside_queue s _ (List.mem_erase_of_ne he.symm)).trans (aside_modEngine _ i _ h hsome)
  have hengine : ((s.takeEngine i e).engine i).district = some e := by
    simp [State.takeEngine, State.enter]
  unfold State.beginRamp
  split
  · exact htake
  · refine htake.trans ((aside_modEngine _ i _ ?_ ?_).trans (aside_modDist he _ _))
    · rw [hengine]; exact hsome
    · simp only [hengine]; exact hsome

theorem aside_completeRamp (i : EngineId) (h : (s.engine i).district ≠ some d) :
    Aside d s (s.completeRamp i e) :=
  ((aside_enter he s _).trans (aside_countAttempt he _)).trans (aside_freeEngine _ i h)

theorem aside_returnEffect : Aside d s (s.returnEffect e) := by
  unfold State.returnEffect
  split
  · exact (aside_freeEngineOf he s).trans (aside_returnToQueue he _)
  · exact (aside_modDist he s _).trans (aside_returnToQueue he _)
  all_goals exact .refl d s

theorem aside_flip : Aside d s (s.flip e) := by
  have h : Aside d s (s.enterReversing e) := (aside_modDist he s _).trans (aside_enter he _ _)
  unfold State.flip
  split
  · exact h.trans (aside_returnToQueue he _)
  · exact h

theorem aside_enterLockout : Aside d s (s.enterLockout e) := by
  unfold State.enterLockout
  refine Aside.trans ?_ (aside_mark he _ 0)
  refine Aside.trans ?_ (aside_setIntentOff he _)
  refine Aside.trans ?_ (aside_modDist he _ _)
  refine Aside.trans ?_ (aside_enter he _ _)
  split
  · exact aside_modSlot s _ _ (fun h => by rw [getLsbD_addDistrict, h, Bool.true_or])
  · exact .refl d s

theorem aside_enterCloseState : Aside d s (s.enterCloseState e) := by
  unfold State.enterCloseState
  split
  · exact aside_enter he s _
  · split
    · exact aside_enterLockout he s
    · split
      · exact aside_flip he s
      all_goals exact aside_enter he s _

end

theorem aside_enterMember {d : DistrictId} {m : Member} (h : m.district ≠ d) (s : State) :
    Aside d s (s.enterMember m) := by
  unfold State.enterMember
  split
  · exact .refl d s
  · split
    · exact aside_checkError h s
    · split
      · exact aside_enter h s _
      · exact aside_enterCloseState h s

/-! ### Closings, notices and scans -/

/-- What an event at other districts leaves of d: all of its context but its incident and its role, its place in or
out of the queue, the engine that holds it; and no feed has come UP. -/
structure Apart (d : DistrictId) (s t : State) : Prop where
  dist : t.dist d = { s.dist d with incidentSlot := (t.dist d).incidentSlot, role := (t.dist d).role }
  queue : d ∈ t.queue ↔ d ∈ s.queue
  engine : ∀ e, (s.engine e).district = some d ∨ (t.engine e).district = some d → t.engine e = s.engine e
  feeds : ∀ k, (s.feed k).state ≠ .up → (t.feed k).state ≠ .up

theorem Apart.refl (d : DistrictId) (s : State) : Apart d s s :=
  ⟨rfl, .rfl, fun _ _ => rfl, fun _ h => h⟩

theorem Apart.trans {d : DistrictId} {s t u : State} (h : Apart d s t) (g : Apart d t u) : Apart d s u where
  dist := by rw [g.dist, h.dist]
  queue := g.queue.trans h.queue
  engine e he := by
    rcases he with he | he
    · have ht := h.engine e (.inl he)
      exact (g.engine e (.inl (ht ▸ he))).trans ht
    · have hu := g.engine e (.inr he)
      exact hu.trans (h.engine e (.inr (hu ▸ he)))
  feeds k hk := g.feeds k (h.feeds k hk)

theorem Aside.apart {d : DistrictId} {s t : State} (h : Aside d s t) (c : Calm s t) : Apart d s t :=
  ⟨by rw [h.dist], h.queue, h.engine, fun k hk => by rw [(c.feed k).state]; exact hk⟩

theorem Apart.state {d : DistrictId} {s t : State} (h : Apart d s t) :
    (t.dist d).state = (s.dist d).state := by rw [h.dist]

theorem Apart.feedOf {d : DistrictId} {s t : State} (h : Apart d s t) :
    (t.dist d).feed = (s.dist d).feed := by rw [h.dist]; rfl

/-- A record accepted changes the Ring Writer and the slots alone (R162). -/
theorem State.acceptRecord_eq (s : State) :
    ∃ ring slots, s.acceptRecord = { s with ring := ring, slots := slots } := by
  unfold State.acceptRecord
  split
  · split <;> exact ⟨_, _, rfl⟩
  · exact ⟨_, _, rfl⟩

/-- A context leaving its incident, if that is the one of slot n (R49). -/
def District.leaveIncident (n : SlotId) (x : District) : District :=
  if x.incidentSlot = some n then { x with incidentSlot := .none, role := .none } else x

theorem District.leaveIncident_eq (n : SlotId) (x : District) :
    ∃ slot role, x.leaveIncident n = { x with incidentSlot := slot, role := role } := by
  unfold District.leaveIncident
  split
  · exact ⟨_, _, rfl⟩
  · exact ⟨x.incidentSlot, x.role, rfl⟩

/-- The members of a list leaving the incident of slot n. -/
theorem foldl_leaveIncident_eq (n : SlotId) (l : List Member) (s : State) :
    ∃ contexts : Vector District 32,
      l.foldl (fun t m => t.modDist m.district (District.leaveIncident n)) s = { s with districts := contexts }
        ∧ ∀ d : DistrictId, ∃ slot role,
          contexts[d] = { s.dist d with incidentSlot := slot, role := role } := by
  refine foldl_keeps (P := fun t : State => ∃ contexts : Vector District 32,
      t = { s with districts := contexts }
        ∧ ∀ d : DistrictId, ∃ slot role, contexts[d] = { s.dist d with incidentSlot := slot, role := role })
    (fun t m => t.modDist m.district (District.leaveIncident n)) l ?_ s ⟨_, rfl, fun d => ⟨_, _, rfl⟩⟩
  rintro m - t ⟨contexts, rfl, hdist⟩
  refine ⟨_, rfl, fun d => ?_⟩
  obtain ⟨slot, role, hd⟩ := hdist d
  rw [get_put]
  split
  · next h =>
    subst h
    obtain ⟨slot', role', hx⟩ := District.leaveIncident_eq n contexts[m.district]
    exact ⟨slot', role', by rw [State.dist, hx, hd]⟩
  · exact ⟨slot, role, hd⟩

/-- A closing changes the Ring Writer, the slots, and the contexts' incidents and roles alone (R49). -/
theorem State.closeSlot_eq (s : State) (n : SlotId) :
    ∃ contexts ring slots, s.closeSlot n = { s with districts := contexts, ring := ring, slots := slots }
      ∧ ∀ d : DistrictId, ∃ slot role,
        (s.closeSlot n).dist d = { s.dist d with incidentSlot := slot, role := role } := by
  obtain ⟨contexts, hleave, hdist⟩ := foldl_leaveIncident_eq n (s.slot n).members s
  obtain ⟨ring, slots, haccept⟩ := State.acceptRecord_eq
    ((State.modSlot { s with districts := contexts } n (fun x => { x with state := .closing })).modRing
      (fun r => { r with closing := r.closing ++ [n] }))
  have hclose : s.closeSlot n = { s with districts := contexts, ring := ring, slots := slots } := by
    have h : s.closeSlot n = ((((s.slot n).members.foldl
        (fun t m => t.modDist m.district (District.leaveIncident n)) s).modSlot n
          (fun x => { x with state := .closing })).modRing
            (fun r => { r with closing := r.closing ++ [n] })).acceptRecord := rfl
    rw [h, hleave, haccept]
    rfl
  refine ⟨contexts, ring, slots, hclose, fun d => ?_⟩
  rw [hclose]
  exact hdist d

theorem apart_closeSlot (d : DistrictId) (s : State) (n : SlotId) : Apart d s (s.closeSlot n) := by
  obtain ⟨contexts, ring, slots, h, hdist⟩ := s.closeSlot_eq n
  obtain ⟨slot, role, hd⟩ := hdist d
  refine ⟨by rw [hd], ?_, fun e _ => ?_, fun k hk => ?_⟩
  · rw [h]
  · rw [h]; rfl
  · rw [h]; exact hk

/-- d is in no position to be released or granted: not GATED, and out of the queue or on a feed not UP. -/
def Resting (d : DistrictId) (s : State) : Prop :=
  (s.dist d).state ≠ .gated ∧ (d ∉ s.queue ∨ (s.feed (s.dist d).feed).state ≠ .up)

theorem Apart.resting {d : DistrictId} {s t : State} (h : Apart d s t) (r : Resting d s) : Resting d t := by
  obtain ⟨hgated, hwait⟩ := r
  refine ⟨by rwa [h.state], ?_⟩
  rw [h.feedOf, h.queue]
  exact hwait.imp_right (h.feeds _)

section
variable {d : DistrictId}

theorem apart_settleSlot (fuel : Nat) (n : SlotId) {s : State} (h : (s.dist d).state ≠ .gated) :
    Apart d s (settleSlot fuel n s) := by
  refine settleSlot_keeps (P := Apart d s) (fun t n ht => ht.trans (apart_closeSlot d t n)) (fun t e ht he => ?_)
    fuel n s (.refl d s)
  have hne : e ≠ d := fun hed => h (by rw [← ht.state, ← hed, he])
  exact ht.trans ((aside_releaseSuspect hne t).apart (calm_releaseSuspect t e))

theorem apart_notify (before : State) (e : DistrictId) {s : State} (h : (s.dist d).state ≠ .gated) :
    Apart d s (before.notify e s) := by
  unfold State.notify
  split
  · exact .refl d s
  · split
    · exact apart_settleSlot 33 _ h
    · exact .refl d s

theorem apart_grant {s : State} {i : EngineId} {e : DistrictId} (he : e ≠ d) (hr : (s.dist d).state ≠ .gated)
    (hi : (s.engine i).district = .none) (ha : s.admissible e = true) : Apart d s (s.grant i e) := by
  have hfree : (s.engine i).district ≠ some d := by rw [hi]; simp
  unfold State.grant
  dsimp only
  split
  · have h := (aside_checkError he s).apart (calm_checkError s e)
    exact h.trans (apart_notify s e (by rwa [h.state]))
  · have hbegin := (aside_beginRamp he s i hfree).apart (calm_beginRamp s i e ha)
    have h := hbegin.trans (apart_notify s e (by rwa [hbegin.state]))
    split
    · have hother : ((s.notify e (s.beginRamp i e)).engine i).district ≠ some d := fun hd => by
        rw [h.engine i (.inr hd)] at hd
        exact hfree hd
      have hcomplete := h.trans ((aside_completeRamp he _ i hother).apart (calm_completeRamp _ i e))
      exact hcomplete.trans (apart_notify _ e (by rwa [hcomplete.state]))
    · exact h

theorem apart_scan {s : State} (hr : Resting d s) : Apart d s s.scan := by
  refine State.scan_keeps (P := Apart d s) (fun t i e ht hi he ha => ?_) s (.refl d s)
  obtain ⟨hgated, hwait⟩ := ht.resting hr
  have hne : e ≠ d := by
    rintro rfl
    obtain ⟨-, hup, -⟩ := (t.admissible_iff e).mp ha
    exact hwait.elim (fun h => h he) (fun h => h hup)
  exact ht.trans (apart_grant hne hgated hi ha)

theorem apart_rescan (before : State) {s : State} (hr : Resting d s) : Apart d s (before.rescan s) := by
  unfold State.rescan
  split
  · exact apart_scan hr
  · exact .refl d s

theorem apart_finish (before : State) (e : DistrictId) {s : State} (hr : Resting d s) :
    Apart d s (before.finish e s) := by
  have h := apart_notify before e hr.1
  exact h.trans (apart_rescan before (h.resting hr))

theorem apart_claim {s : State} {e : DistrictId} (he : e ≠ d) (hr : Resting d s) (f : State → State)
    (ha : Aside d s (f s)) (hc : Calm s (f s)) : Apart d s (s.claim e f) := by
  unfold State.claim State.raiseCheck
  split
  · have h := (aside_checkError he s).apart (calm_checkError s e)
    exact h.trans (apart_finish s e (h.resting hr))
  · have h := ha.apart hc
    exact h.trans (apart_finish s e (h.resting hr))

theorem apart_returnClaim {s : State} {e : DistrictId} (he : e ≠ d) (hr : Resting d s) :
    Apart d s (State.returnClaim e s) := by
  unfold State.returnClaim
  split
  · exact apart_claim he hr _ (aside_returnEffect he s) (calm_returnEffect s e)
  · exact .refl d s

end

end Sys2Proof.Machine
end

section
/-! SUPPORT. The restart queue through closes and scans (R64), and the slots, which
close but do not open. -/

namespace Sys2Proof.Machine

open Sys2Proof

/-- The restart queue holds QUEUED districts alone, each once: the half of R64 that closes and scans rest on. -/
structure QueueHolds (s : State) : Prop where
  nodup : s.queue.Nodup
  queued : ∀ d ∈ s.queue, (s.dist d).state = .queued

theorem QueueAgrees.holds {s : State} (h : QueueAgrees s) : QueueHolds s :=
  ⟨h.1, fun d hd => (h.2 d).mp hd⟩

theorem QueueHolds.not_mem {s : State} (h : QueueHolds s) {d : DistrictId} (hd : (s.dist d).state ≠ .queued) :
    d ∉ s.queue := fun hm => hd (h.queued d hm)

/-- The queue and the states as they were. -/
theorem QueueHolds.of_same {s t : State} (h : QueueHolds s) (hq : t.queue = s.queue)
    (hs : ∀ e, (t.dist e).state = (s.dist e).state) : QueueHolds t :=
  ⟨by rw [hq]; exact h.nodup, fun d hd => by rw [hs]; exact h.queued d (hq ▸ hd)⟩

/-- d out of the queue, in any state. -/
theorem QueueHolds.leave {s t : State} (h : QueueHolds s) (d : DistrictId) (hq : t.queue = s.queue.erase d)
    (hs : ∀ e, e ≠ d → t.dist e = s.dist e) : QueueHolds t := by
  refine ⟨by rw [hq]; exact h.nodup.erase d, fun e he => ?_⟩
  rw [hq, h.nodup.mem_erase_iff] at he
  obtain ⟨hne, hmem⟩ := he
  rw [hs e hne]
  exact h.queued e hmem

/-- d, which is not in the queue, in any state. -/
theorem QueueHolds.outside {s t : State} (h : QueueHolds s) {d : DistrictId} (hd : d ∉ s.queue)
    (hq : t.queue = s.queue) (hs : ∀ e, e ≠ d → t.dist e = s.dist e) : QueueHolds t :=
  h.leave d (by rw [hq, List.erase_of_not_mem hd]) hs

/-- d, which is not in the queue, put into it and QUEUED. -/
theorem QueueHolds.insert {s t : State} (h : QueueHolds s) {d : DistrictId} (hd : d ∉ s.queue)
    (hq : t.queue.Perm (d :: s.queue)) (hst : (t.dist d).state = .queued)
    (hs : ∀ e, e ≠ d → t.dist e = s.dist e) : QueueHolds t := by
  refine ⟨hq.nodup_iff.mpr (List.nodup_cons.mpr ⟨hd, h.nodup⟩), fun e he => ?_⟩
  by_cases hne : e = d
  · rw [hne, hst]
  · rw [hs e hne]
    exact h.queued e ((List.mem_cons.mp (hq.mem_iff.mp he)).resolve_left hne)

/-! ### The shared operations -/

/-- A check error takes d out of the queue, or leaves a LOCKED district's state (R22). -/
theorem QueueHolds.checkError {s : State} (h : QueueHolds s) (d : DistrictId) : QueueHolds (s.checkError d) := by
  have hother (e : DistrictId) (he : e ≠ d) : (s.checkError d).dist e = s.dist e := (aside_checkError he.symm s).dist
  obtain ⟨-, hlocked, hmoved⟩ := checkErrorTaken_checkError s d
  by_cases hs : (s.dist d).state = .locked
  · refine h.outside (d := d) (h.not_mem (by rw [hs]; decide)) ?_ hother
    rw [hlocked hs]
  · refine h.leave d ?_ hother
    rw [(hmoved hs).2]

theorem QueueHolds.enterQueued {s : State} (h : QueueHolds s) {d : DistrictId} (hd : d ∉ s.queue) (b : Bool) :
    QueueHolds (s.enterQueued d b) := by
  refine h.insert hd (insertAfterLast_perm _ d s.queue) ?_ (fun e he => s.dist_enterQueued_other d e b he)
  rw [s.dist_enterQueued_same]
  rfl

theorem QueueHolds.closeSlot {s : State} (h : QueueHolds s) (n : SlotId) : QueueHolds (s.closeSlot n) := by
  obtain ⟨contexts, ring, slots, hclose, -⟩ := s.closeSlot_eq n
  exact h.of_same (by rw [hclose]) (fun d => (apart_closeSlot d s n).state)

theorem QueueHolds.releaseSuspect {s : State} (h : QueueHolds s) (d : DistrictId) (hd : (s.dist d).state = .gated) :
    QueueHolds (s.releaseSuspect d) := by
  unfold State.releaseSuspect
  split
  · exact h.checkError d
  · exact h.enterQueued (h.not_mem (by rw [hd]; decide)) true

theorem QueueHolds.settleSlot {s : State} (h : QueueHolds s) (fuel : Nat) (n : SlotId) :
    QueueHolds (settleSlot fuel n s) :=
  settleSlot_keeps (fun _ n ht => ht.closeSlot n) (fun _ d ht hd => ht.releaseSuspect d hd) fuel n s h

theorem QueueHolds.notify {s : State} (h : QueueHolds s) (before : State) (d : DistrictId) :
    QueueHolds (before.notify d s) :=
  State.notify_keeps (fun _ n ht => ht.closeSlot n) (fun _ d ht hd => ht.releaseSuspect d hd) before d s h

/-! ### Grants and scans -/

@[simp] theorem State.queue_beginRamp (s : State) (i : EngineId) (d : DistrictId) :
    (s.beginRamp i d).queue = s.queue.erase d := by
  unfold State.beginRamp
  split <;> rfl

/-- A district is RAMPING from the start of its grant (R71). -/
@[simp] theorem State.state_beginRamp (s : State) (i : EngineId) (d : DistrictId) :
    ((s.beginRamp i d).dist d).state = .ramping := by
  have h : ((s.takeEngine i d).dist d).state = .ramping := congrArg District.state (State.dist_enter_same _ d .ramping)
  unfold State.beginRamp
  split
  · exact h
  · rw [State.commandStep, State.dist_modDist_same]
    exact h

/-- A grant to an IDLE engine takes its district out of the queue (R71). -/
theorem QueueHolds.beginRamp {s : State} (h : QueueHolds s) (i : EngineId) (d : DistrictId)
    (hi : (s.engine i).district = .none) : QueueHolds (s.beginRamp i d) :=
  h.leave d (s.queue_beginRamp i d) (fun e he => (aside_beginRamp he.symm s i (by rw [hi]; simp)).dist)

theorem QueueHolds.grant {s : State} (h : QueueHolds s) {i : EngineId} {d : DistrictId}
    (hi : (s.engine i).district = .none) : QueueHolds (s.grant i d) := by
  unfold State.grant
  dsimp only
  split
  · exact (h.checkError d).notify s d
  · have hramping := s.state_beginRamp i d
    have hbegun := (h.beginRamp i d hi).notify s d
    split
    · -- the notice leaves d RAMPING, so out of the queue
      have hstill : ((s.notify d (s.beginRamp i d)).dist d).state = .ramping := by
        rw [(apart_notify s d (by rw [hramping]; decide)).state, hramping]
      refine QueueHolds.notify ?_ _ d
      refine hbegun.outside (d := d) (hbegun.not_mem (by rw [hstill]; decide)) rfl (fun e he => ?_)
      exact (State.dist_modDist_other _ d _ e he).trans (State.dist_enter_other _ d e _ he)
    · exact hbegun

theorem QueueHolds.rescan {s : State} (h : QueueHolds s) (before : State) : QueueHolds (before.rescan s) := by
  unfold State.rescan
  split
  · exact State.scan_keeps (fun _ _ _ ht hi _ _ => ht.grant hi) s h
  · exact h

/-! ### Closes -/

theorem QueueHolds.enter {s : State} (h : QueueHolds s) {d : DistrictId} (hd : d ∉ s.queue) (st : DistrictState) :
    QueueHolds (s.enter d st) :=
  h.outside hd rfl (fun e he => s.dist_enter_other d e st he)

theorem QueueHolds.returnToQueue {s : State} (h : QueueHolds s) {d : DistrictId} (hd : d ∉ s.queue) :
    QueueHolds (s.returnToQueue d) := by
  refine h.insert hd (insertAfterLast_perm _ d s.queue) ?_ (fun e he => s.dist_enter_other d e .queued he)
  exact congrArg District.state (s.dist_enter_same d .queued)

@[simp] theorem State.queue_enterLockout (s : State) (d : DistrictId) : (s.enterLockout d).queue = s.queue := by
  rw [State.enterLockout, State.queue_mark]
  cases (s.dist d).incidentSlot <;> rfl

theorem QueueHolds.enterCloseState {s : State} (h : QueueHolds s) {d : DistrictId} (hd : d ∉ s.queue) :
    QueueHolds (s.enterCloseState d) := by
  have hreversing : QueueHolds (s.enterReversing d) :=
    h.outside hd rfl (fun e he => (State.dist_modDist_other _ d _ e he).trans (s.dist_modDist_other d _ e he))
  unfold State.enterCloseState
  split
  · exact h.enter hd _
  · split
    · exact h.outside hd (s.queue_enterLockout d) (fun e he => (aside_enterLockout he.symm s).dist)
    · split
      · unfold State.flip
        split
        · exact hreversing.returnToQueue hd
        · exact hreversing
      all_goals exact h.enter hd _

theorem QueueHolds.enterMember {s : State} (h : QueueHolds s) (m : Member) : QueueHolds (s.enterMember m) := by
  unfold State.enterMember
  split
  · exact h
  · next ht =>
    have hout : m.district ∉ s.queue := h.not_mem (by rw [Decidable.of_not_not ht]; decide)
    split
    · exact h.checkError _
    · split
      · exact h.enter hout _
      · exact h.enterCloseState hout

theorem QueueHolds.fixRoles {s : State} (h : QueueHolds s) (n : SlotId) : QueueHolds (s.fixRoles n) := by
  unfold State.fixRoles
  dsimp only
  refine foldl_keeps (P := QueueHolds) _ _ (fun m _ t ht => ?_) _ (h.of_same rfl (fun _ => rfl))
  split
  · exact ht
  · refine ht.of_same rfl (fun e => ?_)
    rw [State.dist_modDist]
    split
    · next he => rw [he]
    · rfl

theorem QueueHolds.enterCloseStates {s : State} (h : QueueHolds s) (n : SlotId) :
    QueueHolds (s.enterCloseStates n) :=
  QueueHolds.of_same (foldl_keeps (P := QueueHolds) _ _ (fun m _ _ ht => ht.enterMember m) _ (h.fixRoles n)) rfl
    (fun _ => rfl)

/-! ### Slots leave their states by closing alone -/

/-- Slot n's state is one that A holds of. Where A holds of CLOSING and FREE, nothing but a cut changes that. -/
def SlotIn (A : SlotState → Prop) (n : SlotId) (s : State) : Prop := A (s.slot n).state

@[simp] theorem State.slots_checkError (s : State) (d : DistrictId) : (s.checkError d).slots = s.slots := by
  obtain ⟨-, hlocked, hmoved⟩ := checkErrorTaken_checkError s d
  by_cases hs : (s.dist d).state = .locked
  · rw [hlocked hs]
  · rw [(hmoved hs).2]

@[simp] theorem State.slots_beginRamp (s : State) (i : EngineId) (d : DistrictId) :
    (s.beginRamp i d).slots = s.slots := by
  unfold State.beginRamp
  split <;> rfl

@[simp] theorem State.slots_completeRamp (s : State) (i : EngineId) (d : DistrictId) :
    (s.completeRamp i d).slots = s.slots := rfl

@[simp] theorem State.slots_returnEffect (s : State) (d : DistrictId) : (s.returnEffect d).slots = s.slots := by
  unfold State.returnEffect State.freeEngineOf
  split
  · split <;> rfl
  all_goals rfl

section
variable {A : SlotState → Prop} {n : SlotId} {s : State}

theorem SlotIn.of_slots {t : State} (h : SlotIn A n s) (hs : t.slots = s.slots) : SlotIn A n t := by
  rw [SlotIn, State.slot, hs]
  exact h

theorem SlotIn.releaseSuspect (h : SlotIn A n s) (d : DistrictId) : SlotIn A n (s.releaseSuspect d) := by
  unfold State.releaseSuspect
  split
  · exact h.of_slots (s.slots_checkError d)
  · exact h.of_slots rfl

variable (hclosing : A .closing) (hfree : A .free)
include hfree

theorem SlotIn.acceptRecord (h : SlotIn A n s) : SlotIn A n s.acceptRecord := by
  unfold State.acceptRecord
  split
  · split
    · rw [SlotIn, State.slot_modSlot]
      split
      · exact hfree
      · exact h
    · exact h
  · exact h

include hclosing

/-- A closing leaves slot m CLOSING or FREE, and may free the first slot that waits. -/
theorem slotIn_closeSlot (m : SlotId) (h : n = m ∨ SlotIn A n s) : SlotIn A n (s.closeSlot m) := by
  obtain ⟨contexts, hleave, -⟩ := foldl_leaveIncident_eq m (s.slot m).members s
  have hclose : s.closeSlot m = (((State.modSlot { s with districts := contexts } m
      (fun x => { x with state := .closing })).modRing
        (fun r => { r with closing := r.closing ++ [m] }))).acceptRecord := by
    rw [← hleave]
    rfl
  rw [hclose]
  refine SlotIn.acceptRecord hfree ?_
  rw [SlotIn, State.modRing_slot, State.slot_modSlot]
  split
  · exact hclosing
  · next hne => exact h.resolve_left hne

theorem SlotIn.settleSlot (h : SlotIn A n s) (fuel : Nat) (m : SlotId) : SlotIn A n (settleSlot fuel m s) :=
  settleSlot_keeps (fun _ m ht => slotIn_closeSlot hclosing hfree m (.inr ht))
    (fun _ d ht _ => ht.releaseSuspect d) fuel m s h

theorem SlotIn.notify (h : SlotIn A n s) (before : State) (d : DistrictId) : SlotIn A n (before.notify d s) :=
  State.notify_keeps (fun _ m ht => slotIn_closeSlot hclosing hfree m (.inr ht))
    (fun _ d ht _ => ht.releaseSuspect d) before d s h

theorem SlotIn.grant (h : SlotIn A n s) (i : EngineId) (d : DistrictId) : SlotIn A n (s.grant i d) := by
  unfold State.grant
  dsimp only
  split
  · exact (h.of_slots (s.slots_checkError d)).notify hclosing hfree s d
  · have hbegun := (h.of_slots (s.slots_beginRamp i d)).notify hclosing hfree s d
    split
    · exact (hbegun.of_slots (State.slots_completeRamp _ i d)).notify hclosing hfree _ d
    · exact hbegun

theorem SlotIn.rescan (h : SlotIn A n s) (before : State) : SlotIn A n (before.rescan s) := by
  unfold State.rescan
  split
  · exact State.scan_keeps (fun _ i d ht _ _ _ => ht.grant hclosing hfree i d) s h
  · exact h

theorem SlotIn.returnClaim (h : SlotIn A n s) (d : DistrictId) : SlotIn A n (State.returnClaim d s) := by
  unfold State.returnClaim State.claim State.raiseCheck State.finish
  split
  · split
    · exact ((h.of_slots (s.slots_checkError d)).notify hclosing hfree s d).rescan hclosing hfree s
    · exact ((h.of_slots (s.slots_returnEffect d)).notify hclosing hfree s d).rescan hclosing hfree s
  · exact h

end

end Sys2Proof.Machine
end

section
/-! SUPPORT. The attribution of a close matched with the spec's own terms of it: the stamp order, the origin, the
sagged feeds and their blamed members, and the table of R41 row by row. -/

namespace Sys2Proof.Machine

open Sys2Proof

/-! ### Stamp order (R40) -/

theorem stampBefore_iff (anchor : Stamp) (x y : Member) : stampBefore anchor x y = true ↔ StampBefore anchor x y := by
  unfold stampBefore StampBefore stampOffset
  generalize (x.stamp - anchor).toInt = a
  generalize (y.stamp - anchor).toInt = b
  by_cases hs : x.saturated = y.saturated
  · by_cases ho : a = b
    · by_cases hp : x.cause.priority = y.cause.priority <;> simp [hs, ho, hp]
    · simp [hs, ho]
  · cases hx : x.saturated <;> cases hy : y.saturated <;> simp_all

theorem StampBefore.irrefl (anchor : Stamp) (x : Member) : ¬StampBefore anchor x x := by
  simp [StampBefore]

theorem StampBefore.trans {anchor : Stamp} {x y z : Member} (h : StampBefore anchor x y)
    (g : StampBefore anchor y z) : StampBefore anchor x z := by
  unfold StampBefore at *
  grind

theorem insertInOrder_perm (anchor : Stamp) (x : Member) (l : List Member) :
    (insertInOrder anchor x l).Perm (x :: l) := by
  induction l with
  | nil => exact .refl _
  | cons y l ih =>
    unfold insertInOrder
    split
    · exact .refl _
    · exact (ih.cons y).trans (.swap x y l)

theorem inStampOrder_perm (anchor : Stamp) (l : List Member) : (inStampOrder anchor l).Perm l := by
  induction l with
  | nil => exact .refl _
  | cons x l ih => exact (insertInOrder_perm anchor x _).trans (ih.cons x)

/-- A list in which no member stands behind one it precedes in stamp order. -/
def InStampOrder (anchor : Stamp) (l : List Member) : Prop :=
  l.Pairwise (fun x y => ¬StampBefore anchor y x)

theorem inStampOrder_insertInOrder (anchor : Stamp) (x : Member) {l : List Member} (h : InStampOrder anchor l) :
    InStampOrder anchor (insertInOrder anchor x l) := by
  induction l with
  | nil => exact List.pairwise_singleton _ x
  | cons y l ih =>
    obtain ⟨hy, hl⟩ := List.pairwise_cons.mp h
    unfold insertInOrder
    split
    · next hxy =>
      have hxy := (stampBefore_iff anchor x y).mp hxy
      refine List.pairwise_cons.mpr ⟨fun z hz hzx => ?_, h⟩
      rcases List.mem_cons.mp hz with rfl | hz
      · exact StampBefore.irrefl anchor x (hxy.trans hzx)
      · exact hy z hz (hzx.trans hxy)
    · next hxy =>
      rw [stampBefore_iff] at hxy
      refine List.pairwise_cons.mpr ⟨fun z hz => ?_, ih hl⟩
      rcases List.mem_cons.mp ((insertInOrder_perm anchor x l).mem_iff.mp hz) with rfl | hz
      · exact hxy
      · exact hy z hz

theorem inStampOrder_inStampOrder (anchor : Stamp) (l : List Member) :
    InStampOrder anchor (inStampOrder anchor l) := by
  induction l with
  | nil => exact List.Pairwise.nil
  | cons x l ih => exact inStampOrder_insertInOrder anchor x ih

/-- The member before all others stands first. -/
theorem head_inStampOrder {anchor : Stamp} {l : List Member} {m : Member} (hm : m ∈ l)
    (hfirst : ∀ p ∈ l, p ≠ m → StampBefore anchor m p) : ∃ rest, inStampOrder anchor l = m :: rest := by
  have hperm := inStampOrder_perm anchor l
  have horder := inStampOrder_inStampOrder anchor l
  cases hs : inStampOrder anchor l with
  | nil => rw [hs] at hperm; cases hperm.mem_iff.mpr hm
  | cons y rest =>
    rw [hs] at hperm horder
    by_cases hy : y = m
    · exact ⟨rest, by rw [hy]⟩
    · have hrest : m ∈ rest := (List.mem_cons.mp (hperm.mem_iff.mpr hm)).resolve_left (fun h => hy h.symm)
      exact absurd (hfirst y (hperm.mem_iff.mp List.mem_cons_self) hy) ((List.pairwise_cons.mp horder).1 m hrest)

/-! ### The members that count -/

theorem Cause.isFault_eq (c : Cause) : c.isFault = (c != .undervoltage) := by cases c <;> rfl

theorem Slot.faultSet_eq (x : Slot) :
    x.faultSet = x.members.filter (fun m => !m.withdrawn && m.cause != .undervoltage) := by
  simp only [Slot.faultSet, Slot.active, List.filter_filter, Cause.isFault_eq, Bool.and_comm]

theorem Slot.faultSet_of_inactive {x : Slot} (h : x.active = []) : x.faultSet = [] := by
  rw [Slot.faultSet, h]
  rfl

/-- With every member withdrawn the origin is the first entry (R40). -/
theorem Slot.originOf_of_inactive {x : Slot} (h : x.active = []) :
    x.originOf = x.members.head?.map Member.district := by
  simp [Slot.originOf, h, x.faultSet_of_inactive h, inStampOrder]

/-- The origin is the first candidate in stamp order (R40). -/
theorem Slot.originOf_of_first {x : Slot} {m : Member}
    (hm : m ∈ if x.faultSet = [] then x.active else x.faultSet)
    (hfirst : ∀ p ∈ (if x.faultSet = [] then x.active else x.faultSet), p ≠ m → StampBefore x.anchor m p) :
    x.originOf = some m.district := by
  obtain ⟨rest, h⟩ := head_inStampOrder hm hfirst
  simp only [Slot.originOf, List.isEmpty_iff, h]

/-! ### Sagged feeds and blamed members (R42, R101) -/

theorem State.sagCounted_eq (s : State) (x : Slot) (k : FeedId) :
    s.sagCounted x k = x.members.filter (SagCounts s k) := by
  rw [State.sagCounted, Slot.active, List.filter_filter]
  congr 1
  funext m
  simp only [SagCounts, Bool.and_comm, Bool.and_left_comm, Bool.and_assoc]

theorem State.mem_saggedFeeds (s : State) (x : Slot) (k : FeedId) :
    k ∈ s.saggedFeeds x ↔ Sagged s x.members k := by
  simp [State.saggedFeeds, Sagged, s.sagCounted_eq, Feed.sagMembers]

theorem State.saggedFeeds_nodup (s : State) (x : Slot) : (s.saggedFeeds x).Nodup :=
  (List.nodup_finRange 8).filter _

/-- The member a feed blames is the counted one, proving when it tripped, that stands newest in the history. -/
theorem State.blamed_eq_some_iff (s : State) (x : Slot) (k : FeedId) (d : DistrictId) :
    s.blamed x k = some d ↔
      (∃ m ∈ x.members, m.district = d ∧ SagCounts s k m = true ∧ m.wasProving = true)
        ∧ ∃ older newer, (s.feed k).history = older ++ d :: newer
          ∧ ∀ m ∈ x.members, SagCounts s k m = true → m.wasProving = true → m.district ∉ newer := by
  have htest (e : DistrictId) : (s.sagCounted x k).any (fun m => m.district == e && m.wasProving) = true ↔
      ∃ m ∈ x.members, m.district = e ∧ SagCounts s k m = true ∧ m.wasProving = true := by
    simp only [s.sagCounted_eq, List.any_eq_true, List.mem_filter, Bool.and_eq_true, beq_iff_eq]
    exact ⟨fun ⟨m, ⟨hm, hc⟩, hd, hp⟩ => ⟨m, hm, hd, hc, hp⟩, fun ⟨m, hm, hd, hc, hp⟩ => ⟨m, ⟨hm, hc⟩, hd, hp⟩⟩
  rw [State.blamed, List.find?_eq_some_iff_append]
  refine and_congr (htest d) ⟨?_, ?_⟩
  · rintro ⟨newer, older, hhist, hnone⟩
    refine ⟨older.reverse, newer.reverse, ?_, fun m hm hc hp hmem => ?_⟩
    · rw [← List.reverse_reverse (s.feed k).history, hhist]
      simp
    · have hfails := hnone m.district (List.mem_reverse.mp hmem)
      rw [(htest m.district).mpr ⟨m, hm, rfl, hc, hp⟩] at hfails
      cases hfails
  · rintro ⟨older, newer, hhist, hnone⟩
    refine ⟨newer.reverse, older.reverse, by rw [hhist]; simp, fun e he => ?_⟩
    rw [Bool.not_eq_true', Bool.eq_false_iff]
    intro hyes
    obtain ⟨m, hm, rfl, hc, hp⟩ := (htest e).mp hyes
    exact hnone m hm hc hp (List.mem_reverse.mp he)

theorem State.mem_blamed_iff (s : State) (x : Slot) (d : DistrictId) :
    d ∈ (s.saggedFeeds x).filterMap (s.blamed x) ↔ Blamed s x.members d := by
  simp only [List.mem_filterMap, s.mem_saggedFeeds, s.blamed_eq_some_iff, Blamed]
  constructor
  · rintro ⟨k, hk, hm, older, newer, hhist, hnone⟩
    exact ⟨k, older, newer, hk, hm, hhist, hnone⟩
  · rintro ⟨k, older, newer, hk, hm, hhist, hnone⟩
    exact ⟨k, hk, hm, older, newer, hhist, hnone⟩

/-! ### The table of R41 -/

/-- The bridge test of the model is that of R41. -/
theorem State.bridged_iff (s : State) (x y : DistrictId) :
    (s.adjacent x y && (s.dist x).feed != (s.dist y).feed) = true ↔ Bridged s x y := by
  simp only [State.adjacent, Bridged, Bool.and_eq_true, bne_iff_ne, List.any_eq_true, List.mem_finRange, true_and,
    adjacentValid, namesPair, adjacentA, adjacentB, Bool.or_eq_true, beq_iff_eq]
  exact and_congr_left (fun hfeed => and_iff_right (fun h => hfeed (by rw [h])))

section
variable (s : State) {x : Slot}

theorem State.attribute_of_inactive (h : x.active = []) :
    s.attribute x = { cls := .undervolt, suspects := [], flips := [] } := by
  simp [State.attribute, h]

theorem Slot.active_ne_nil {m : Member} {l : List Member} (h : x.faultSet = m :: l) :
    x.active.isEmpty = false := by
  rw [Bool.eq_false_iff, ne_eq, List.isEmpty_iff]
  intro ha
  rw [x.faultSet_of_inactive ha] at h
  cases h

theorem State.attribute_of_quiet (ha : x.active ≠ []) (hf : x.faultSet = [])
    (hs : ∀ k, ¬Sagged s x.members k) : s.attribute x = { cls := .undervolt, suspects := [], flips := [] } := by
  have hnone : s.saggedFeeds x = [] := List.eq_nil_iff_forall_not_mem.mpr (fun k hk => hs k ((s.mem_saggedFeeds x k).mp hk))
  simp [State.attribute, ha, hf, hnone]

theorem State.attribute_of_sagged (ha : x.active ≠ []) (hf : x.faultSet = [])
    (hs : ∃ k, Sagged s x.members k) : s.attribute x =
      { cls := .feedSag, suspects := (s.saggedFeeds x).filterMap (s.blamed x), flips := [] } := by
  obtain ⟨k, hk⟩ := hs
  have hsome : s.saggedFeeds x ≠ [] := List.ne_nil_of_mem ((s.mem_saggedFeeds x k).mpr hk)
  simp [State.attribute, ha, hf, hsome]

theorem State.attribute_of_reversing {m : Member} (hf : x.faultSet = [m])
    (hr : (s.dist m.district).reversing = true) :
    s.attribute x = { cls := .reverse, suspects := [], flips := [m.district] } := by
  simp [State.attribute, x.active_ne_nil hf, hf, hr]

theorem State.attribute_of_short {m : Member} (hf : x.faultSet = [m])
    (hr : (s.dist m.district).reversing = false) :
    s.attribute x = { cls := .short, suspects := [m.district], flips := [] } := by
  simp [State.attribute, x.active_ne_nil hf, hf, hr]

/-- Two bridged fault members of which the one alone reverses. -/
theorem State.attribute_of_bridged_reversing {m p f : Member} (hf : x.faultSet = [m, p])
    (hb : Bridged s m.district p.district) (hm : f = m ∨ f = p) (hr : (s.dist f.district).reversing = true)
    (ho : (s.dist m.district).reversing = false ∨ (s.dist p.district).reversing = false) :
    s.attribute x = { cls := .reverse, suspects := [], flips := [f.district] } := by
  have hb := (s.bridged_iff m.district p.district).mpr hb
  rcases hm with rfl | rfl
  · have ho := ho.resolve_left (by rw [hr]; decide)
    simp [State.attribute, x.active_ne_nil hf, hf, hb, hr, ho]
  · have ho := ho.resolve_right (by rw [hr]; decide)
    simp [State.attribute, x.active_ne_nil hf, hf, hb, hr, ho]

theorem State.attribute_of_bridged {m p : Member} (hf : x.faultSet = [m, p])
    (hb : Bridged s m.district p.district) (hr : (s.dist m.district).reversing = (s.dist p.district).reversing) :
    s.attribute x = { cls := .bridge, suspects := [m.district, p.district], flips := [] } := by
  have hb := (s.bridged_iff m.district p.district).mpr hb
  cases hp : (s.dist p.district).reversing <;>
    simp [State.attribute, x.active_ne_nil hf, hf, hb, hr, hp]

theorem State.attribute_of_several (hf : 2 ≤ x.faultSet.length)
    (hb : ∀ m p : Member, x.faultSet = [m, p] → ¬Bridged s m.district p.district) :
    s.attribute x = { cls := .multi, suspects := x.faultSet.map Member.district, flips := [] } := by
  match hl : x.faultSet with
  | [] | [_] => simp [hl] at hf
  | [m, p] =>
    have hb := (not_congr (s.bridged_iff m.district p.district)).mpr (hb m p hl)
    simp [State.attribute, x.active_ne_nil hl, hl, eq_false_of_ne_true hb]
  | m :: p :: q :: l => simp [State.attribute, x.active_ne_nil hl, hl]

/-- BRIDGE and MULTI make every fault member a suspect (R41). -/
theorem State.attribute_joint (h : (s.attribute x).cls = .bridge ∨ (s.attribute x).cls = .multi) :
    (s.attribute x).flips = [] ∧ (s.attribute x).suspects = x.faultSet.map Member.district := by
  by_cases ha : x.active = []
  · simp [s.attribute_of_inactive ha] at h
  · match hl : x.faultSet with
    | [] =>
      by_cases hs : ∃ k, Sagged s x.members k
      · simp [s.attribute_of_sagged ha hl hs] at h
      · simp [s.attribute_of_quiet ha hl (not_exists.mp hs)] at h
    | [m] =>
      cases hr : (s.dist m.district).reversing with
      | true => simp [s.attribute_of_reversing hl hr] at h
      | false => simp [s.attribute_of_short hl hr] at h
    | [m, p] =>
      by_cases hb : Bridged s m.district p.district
      · by_cases hr : (s.dist m.district).reversing = (s.dist p.district).reversing
        · simp [s.attribute_of_bridged hl hb hr]
        · cases hm : (s.dist m.district).reversing with
          | true =>
            have hp : (s.dist p.district).reversing = false := by simpa [hm] using hr
            simp [s.attribute_of_bridged_reversing hl hb (.inl rfl) hm (.inr hp)] at h
          | false =>
            have hp : (s.dist p.district).reversing = true := by simpa [hm] using hr
            simp [s.attribute_of_bridged_reversing hl hb (.inr rfl) hp (.inl hm)] at h
      · have hb' : ∀ m' p' : Member, x.faultSet = [m', p'] → ¬Bridged s m'.district p'.district := by
          intro m' p' hl'
          rw [hl] at hl'
          cases hl'
          exact hb
        rw [s.attribute_of_several (by rw [hl]; exact Nat.le_refl 2) hb', hl]
        exact ⟨rfl, rfl⟩
    | m :: p :: q :: l =>
      rw [s.attribute_of_several (by rw [hl]; simp) (fun _ _ hl' => by rw [hl] at hl'; cases hl'), hl]
      exact ⟨rfl, rfl⟩

end

end Sys2Proof.Machine
end

section
/-! SUPPORT. The close of a gathering slot: the slot with its attribution (R40 to R42), and the state each member
enters (R43). -/

namespace Sys2Proof.Machine

open Sys2Proof

/-! ### The slot with its attribution -/

/-- A slot with its origin, class, roles and suspect order fixed, its gathering timer stopped (R40 to R42). -/
def Slot.attributed (x : Slot) (a : Attribution) : Slot :=
  { x with
    origin := x.originOf
    cls := some a.cls
    members := x.members.map (fun m => { m with role := a.role m })
    suspects := (inStampOrder x.anchor ((x.members.map (fun m => { m with role := a.role m })).filter
      (fun m => m.role == .suspect))).map Member.district
    timer := .none }

/-- A member's entry with its role: a withdrawn member's stands as it is (R40, R41). -/
theorem Attribution.entry_eq (a : Attribution) (m : Member) : ({ m with role := a.role m } : Member) =
    if m.withdrawn then m else
      { m with role :=
          if a.flips.contains m.district then .flip
          else if a.suspects.contains m.district then .suspect else .follower } := by
  unfold Attribution.role
  split <;> rfl

theorem Slot.members_attributed (x : Slot) (a : Attribution) : (x.attributed a).members =
    x.members.map (fun m => if m.withdrawn then m else
      { m with role :=
          if a.flips.contains m.district then .flip
          else if a.suspects.contains m.district then .suspect else .follower }) := by
  simp only [Slot.attributed, a.entry_eq]

theorem Slot.districts_attributed (x : Slot) (a : Attribution) :
    (x.attributed a).members.map Member.district = x.members.map Member.district := by
  simp [Slot.attributed]

/-- A REVERSE attribution: one flip, and the others follow (R41). -/
theorem Slot.members_of_flip (x : Slot) {a : Attribution} {d : DistrictId}
    (h : a = { cls := .reverse, suspects := [], flips := [d] }) : (x.attributed a).members =
      x.members.map (fun m => if m.withdrawn then m else
        { m with role := if m.district = d then .flip else .follower }) := by
  subst h
  simp [Slot.members_attributed]

/-- A SHORT attribution: one suspect, and the others follow (R41). -/
theorem Slot.members_of_suspect (x : Slot) {a : Attribution} {d : DistrictId}
    (h : a = { cls := .short, suspects := [d], flips := [] }) : (x.attributed a).members =
      x.members.map (fun m => if m.withdrawn then m else
        { m with role := if m.district = d then .suspect else .follower }) := by
  subst h
  simp [Slot.members_attributed]

/-- A BRIDGE or MULTI attribution: the fault members are suspects, and the others follow (R41). -/
theorem Slot.members_of_suspects (x : Slot) {a : Attribution} {faults : List Member}
    (h : a.flips = [] ∧ a.suspects = faults.map Member.district) : (x.attributed a).members =
      x.members.map (fun m => if m.withdrawn then m else
        { m with role := if faults.any (fun p => p.district == m.district) then .suspect else .follower }) := by
  obtain ⟨hflips, hsuspects⟩ := h
  have hmem (d : DistrictId) :
      (faults.map Member.district).contains d = faults.any (fun p => p.district == d) := by
    rw [Bool.eq_iff_iff]
    simp
  simp only [Slot.members_attributed, hflips, hsuspects, hmem, List.contains_nil, Bool.false_eq_true, if_false]

/-- An UNDERVOLT attribution: all follow (R41). -/
theorem Slot.members_of_none (x : Slot) {a : Attribution}
    (h : a = { cls := .undervolt, suspects := [], flips := [] }) : (x.attributed a).members =
      x.members.map (fun m => if m.withdrawn then m else { m with role := .follower }) := by
  subst h
  simp [Slot.members_attributed]

/-- With every member withdrawn the entries stand as they are. -/
theorem Slot.members_of_inactive {x : Slot} (h : x.active = []) (a : Attribution) :
    (x.attributed a).members = x.members := by
  have hall : ∀ m ∈ x.members, m.withdrawn = true := by simpa [Slot.active] using h
  rw [x.members_attributed, List.map_congr_left (fun m hm => if_pos (hall m hm)), List.map_id']

/-- A role of an attribution without flips is in the entry of each member not withdrawn. -/
theorem Slot.mem_attributed {x : Slot} {a : Attribution} {m : Member} (hflips : a.flips = []) (hm : m ∈ x.members)
    (hw : m.withdrawn = false) :
    (m.district ∈ a.suspects → { m with role := .suspect } ∈ (x.attributed a).members)
      ∧ (m.district ∉ a.suspects → { m with role := .follower } ∈ (x.attributed a).members) := by
  rw [x.members_attributed]
  constructor <;> intro h <;> refine List.mem_map.mpr ⟨m, hm, ?_⟩ <;> simp [hw, hflips, h]

/-- The suspects stand in stamp order (R40, R41). -/
theorem Slot.suspects_attributed (x : Slot) (a : Attribution) :
    ∃ order : List Member, (x.attributed a).suspects = order.map Member.district
      ∧ order.Perm ((x.attributed a).members.filter (fun m => m.role == .suspect))
      ∧ InStampOrder x.anchor order :=
  ⟨_, rfl, inStampOrder_perm _ _, inStampOrder_inStampOrder _ _⟩

/-! ### The close as two folds -/

/-- A member's role taken into its context, unless it is withdrawn (R41). -/
def State.giveRole (s : State) (m : Member) : State :=
  if m.withdrawn then s else s.modDist m.district (fun y => { y with role := m.role })

/-- The entries of slot n with the roles its close gives. -/
def State.closingMembers (s : State) (n : SlotId) : List Member :=
  ((s.slot n).attributed (s.attribute (s.slot n))).members

theorem State.fixRoles_eq (s : State) (n : SlotId) : s.fixRoles n =
    (s.closingMembers n).foldl State.giveRole
      (s.modSlot n (fun _ => (s.slot n).attributed (s.attribute (s.slot n)))) := rfl

theorem aside_giveRole {d : DistrictId} {m : Member} (h : m.district ≠ d) (s : State) :
    Aside d s (s.giveRole m) := by
  unfold State.giveRole
  split
  · exact .refl d s
  · exact aside_modDist h s _

theorem State.slots_giveRole (s : State) (m : Member) : (s.giveRole m).slots = s.slots := by
  unfold State.giveRole
  split <;> rfl

theorem State.slots_foldl_giveRole (l : List Member) (s : State) :
    (l.foldl State.giveRole s).slots = s.slots :=
  foldl_keeps (P := fun t : State => t.slots = s.slots) State.giveRole l
    (fun m _ t ht => (t.slots_giveRole m).trans ht) s rfl

theorem State.slot_fixRoles (s : State) (n : SlotId) :
    (s.fixRoles n).slot n = (s.slot n).attributed (s.attribute (s.slot n)) := by
  rw [s.fixRoles_eq, State.slot, State.slots_foldl_giveRole]
  exact s.slot_modSlot_same n _

theorem State.enterCloseStates_eq (s : State) (n : SlotId) : s.enterCloseStates n =
    ((s.closingMembers n).foldl State.enterMember (s.fixRoles n)).modSlot n
      (fun y => { y with state := .recovering }) := by
  rw [State.enterCloseStates, s.slot_fixRoles]
  rfl

theorem calm_enterCloseStates (s : State) (n : SlotId) : Calm s (s.enterCloseStates n) :=
  ((calm_fixRoles s n).trans (calm_foldl _ _ (fun m _ t => calm_enterMember t m) _)).trans (calm_modSlot _ n _)

@[simp] theorem State.slot_mark (s : State) (p : IntentPos) (k : SlotId) : (s.mark p).slot k = s.slot k := by
  unfold State.mark
  split <;> rfl

/-- A lockout adds to the lockout set of its slot, and changes nothing else of any slot (R43). -/
theorem State.slot_enterLockout (s : State) (d : DistrictId) (k : SlotId) :
    ∃ lockouts, (s.enterLockout d).slot k = { s.slot k with lockouts := lockouts } := by
  rw [State.enterLockout, State.slot_mark]
  cases (s.dist d).incidentSlot with
  | none => exact ⟨_, rfl⟩
  | some m =>
    have h := s.slot_modSlot m (fun x => { x with lockouts := addDistrict x.lockouts d }) k
    refine ⟨if k = m then addDistrict (s.slot m).lockouts d else (s.slot k).lockouts, h.trans ?_⟩
    split
    · next he => subst he; rfl
    · rfl

theorem State.slot_enterMember (s : State) (m : Member) (k : SlotId) :
    ∃ lockouts, (s.enterMember m).slot k = { s.slot k with lockouts := lockouts } := by
  unfold State.enterMember State.enterCloseState
  split
  · exact ⟨_, rfl⟩
  · split
    · exact ⟨_, by rw [State.slot, s.slots_checkError]; rfl⟩
    · split
      · exact ⟨_, rfl⟩
      · split
        · exact ⟨_, rfl⟩
        · split
          · exact s.slot_enterLockout _ k
          · split
            · unfold State.flip
              split <;> exact ⟨_, rfl⟩
            all_goals exact ⟨_, rfl⟩

/-- The slot once its members have entered their states: RECOVERING with its attribution, and whatever lockouts. -/
theorem State.slot_enterCloseStates (s : State) (n : SlotId) :
    ∃ lockouts, (s.enterCloseStates n).slot n =
      { (s.slot n).attributed (s.attribute (s.slot n)) with state := .recovering, lockouts := lockouts } := by
  obtain ⟨lockouts, h⟩ := foldl_keeps
    (P := fun t : State => ∃ lockouts, t.slot n = { (s.fixRoles n).slot n with lockouts := lockouts })
    State.enterMember (s.closingMembers n) (fun m _ t ht => by
      obtain ⟨_, ht⟩ := ht
      obtain ⟨lockouts, hm⟩ := t.slot_enterMember m n
      exact ⟨lockouts, by rw [hm, ht]⟩) (s.fixRoles n) ⟨_, rfl⟩
  refine ⟨lockouts, ?_⟩
  rw [s.enterCloseStates_eq, State.slot_modSlot_same, h, s.slot_fixRoles]

/-! ### The one entry of a district -/

/-- A list with one entry of d, split at it. -/
theorem split_of_one_entry {l : List Member} {d : DistrictId} {m : Member}
    (h : (l.filter (fun p => p.district == d)).length = 1) (hm : m ∈ l) (hd : m.district = d) :
    ∃ before after, l = before ++ m :: after ∧ (∀ p ∈ before, p.district ≠ d) ∧ ∀ p ∈ after, p.district ≠ d := by
  obtain ⟨before, after, rfl⟩ := List.append_of_mem hm
  rw [List.filter_append, List.filter_cons_of_pos (by simpa using hd), List.length_append, List.length_cons] at h
  have hcount (l : List Member) (hl : (l.filter (fun p => p.district == d)).length = 0) : ∀ p ∈ l, p.district ≠ d := by
    simpa using hl
  exact ⟨before, after, rfl, hcount before (by omega), hcount after (by omega)⟩

theorem State.entries_closingMembers (s : State) (n : SlotId) (d : DistrictId) :
    ((s.closingMembers n).filter (fun p => p.district == d)).length =
      ((s.slot n).members.filter (fun p => p.district == d)).length := by
  simp only [State.closingMembers, Slot.attributed, List.filter_map, List.length_map]
  rfl

/-- The slot's own attribution leaves every context and the lockout sets. -/
theorem aside_attributed (s : State) (n : SlotId) (d : DistrictId) :
    Aside d s (s.modSlot n (fun _ => (s.slot n).attributed (s.attribute (s.slot n)))) :=
  aside_modSlot s n _ (fun h => h)

/-- The state before the one entry of d enters its state: d has its role, and after d's entry the close leaves d
aside. -/
theorem State.close_at_one_entry (s : State) (n : SlotId) {m : Member} (hm : m ∈ s.closingMembers n)
    (h : ((s.slot n).members.filter (fun p => p.district == m.district)).length = 1) :
    ∃ t : State, Calm s t
      ∧ t.dist m.district =
        (if m.withdrawn then s.dist m.district else { s.dist m.district with role := m.role })
      ∧ Aside m.district (t.enterMember m) (s.enterCloseStates n) := by
  rw [← s.entries_closingMembers] at h
  obtain ⟨before, after, hl, hbefore, hafter⟩ := split_of_one_entry h hm rfl
  have hgiven : ((s.fixRoles n).dist m.district) =
      if m.withdrawn then s.dist m.district else { s.dist m.district with role := m.role } := by
    rw [s.fixRoles_eq, hl, List.foldl_append, List.foldl_cons]
    rw [(aside_foldl _ after (fun p hp t => aside_giveRole (hafter p hp) t) _).dist]
    have hstart := ((aside_attributed s n m.district).trans
      (aside_foldl State.giveRole before (fun p hp t => aside_giveRole (hbefore p hp) t) _)).dist
    unfold State.giveRole at hstart ⊢
    split
    · exact hstart
    · rw [State.dist_modDist_same, hstart]
  refine ⟨before.foldl State.enterMember (s.fixRoles n), ?_, ?_, ?_⟩
  · exact (calm_fixRoles s n).trans (calm_foldl _ _ (fun p _ t => calm_enterMember t p) _)
  · rw [(aside_foldl State.enterMember before (fun p hp t => aside_enterMember (hbefore p hp) t) _).dist, hgiven]
  · rw [s.enterCloseStates_eq, hl, List.foldl_append, List.foldl_cons]
    refine Aside.trans ?_ (aside_modSlot _ n _ (fun h => h))
    exact aside_foldl State.enterMember after (fun p hp t => aside_enterMember (hafter p hp) t) _

/-! ### The state a member enters (R43) -/

section
variable {s : State} {m : Member}

theorem State.enterMember_of_stays (h : (s.dist m.district).state ≠ .tripped) : s.enterMember m = s := if_pos h

theorem State.enterMember_of_fails (h : (s.dist m.district).state = .tripped) (hp : ¬s.passes m.district) :
    s.enterMember m = s.checkError m.district := by
  rw [State.enterMember, if_neg (not_not.mpr h), if_pos (eq_true_of_ne_false hp)]

theorem State.enterMember_of_withdrawn (h : (s.dist m.district).state = .tripped) (hp : s.passes m.district)
    (hw : m.withdrawn = true) : s.enterMember m = s.enter m.district .off := by
  rw [State.enterMember, if_neg (not_not.mpr h), if_neg (by rw [show s.checkFails m.district = false from hp]; decide),
    if_pos hw]

theorem State.enterMember_of_passes (h : (s.dist m.district).state = .tripped) (hp : s.passes m.district)
    (hw : m.withdrawn = false) : s.enterMember m = s.enterCloseState m.district := by
  rw [State.enterMember, if_neg (not_not.mpr h), if_neg (by rw [show s.checkFails m.district = false from hp]; decide),
    if_neg (by rw [hw]; decide)]

end

section
variable {s : State} {d : DistrictId}

theorem State.enterCloseState_of_manual (h : (s.dist d).intent = .onManual) :
    s.enterCloseState d = s.enter d .stopped := if_pos h

theorem State.enterCloseState_of_limit (h : (s.dist d).intent ≠ .onManual)
    (hl : (s.dist d).attempts = s.control.limit) : s.enterCloseState d = s.enterLockout d := by
  rw [State.enterCloseState, if_neg h, if_pos hl]

theorem State.enterCloseState_of_flip (h : (s.dist d).intent ≠ .onManual)
    (hl : (s.dist d).attempts ≠ s.control.limit) (hr : (s.dist d).role = .flip) :
    s.enterCloseState d = s.flip d := by
  rw [State.enterCloseState, if_neg h, if_neg hl, hr]

theorem State.enterCloseState_of_holdoff (h : (s.dist d).intent ≠ .onManual)
    (hl : (s.dist d).attempts ≠ s.control.limit) (hr : (s.dist d).role ≠ .flip) :
    s.enterCloseState d = s.enter d .holdoff := by
  rw [State.enterCloseState, if_neg h, if_neg hl]
  cases hrole : (s.dist d).role with
  | flip => exact absurd hrole hr
  | _ => rfl

/-- A member that enters a state keeps its role. -/
theorem District.role_enter_of_member (c : Control) (st : DistrictState) {x : District} {n : SlotId}
    (h : x.incidentSlot = some n) : (x.enter c st).role = x.role := by
  simp [District.enter, District.dropsRole_of_member h]

theorem State.enterLockout_of_member {n : SlotId} (h : (s.dist d).incidentSlot = some n) :
    s.enterLockout d =
      ((((s.modSlot n (fun x => { x with lockouts := addDistrict x.lockouts d })).enter d .lockout).modDist d
        District.latchLockout).setIntentOff d).mark (.district d 0) := by
  rw [State.enterLockout, h]

/-- A member locked out: its context, its mark and its bit of the lockout set (R43, R45). -/
theorem State.enterLockout_spec {n : SlotId} (h : (s.dist d).incidentSlot = some n) :
    (s.enterLockout d).dist d = (((s.dist d).enter s.control .lockout).latchLockout).setWord 0
        ((s.dist d).words[0] &&& 0xFFFC)
      ∧ ((s.enterLockout d).slot n).lockouts.getLsbD d.val = true
      ∧ ((s.dist d).invalid = false → IntentPos.district d 0 ∈ (s.enterLockout d).corrections) := by
  have hdist : ((((s.modSlot n (fun x => { x with lockouts := addDistrict x.lockouts d })).enter d .lockout).modDist d
      District.latchLockout).setIntentOff d).dist d =
        (((s.dist d).enter s.control .lockout).latchLockout).setWord 0 ((s.dist d).words[0] &&& 0xFFFC) := by
    rw [State.dist_setIntentOff_same, State.dist_modDist_same, State.dist_enter_same]
    rfl
  rw [State.enterLockout_of_member h]
  refine ⟨?_, ?_, fun hv => ?_⟩
  · rw [State.dist_mark, hdist]
  · rw [State.slot_mark]
    have hslot := s.slot_modSlot_same n (fun x => { x with lockouts := addDistrict x.lockouts d })
    refine (congrArg (fun x : Slot => x.lockouts.getLsbD d.val) hslot).trans ?_
    rw [getLsbD_addDistrict]
    simp
  · rw [State.mem_corrections_mark]
    refine .inr ⟨rfl, ?_⟩
    rw [State.ofInvalid, hdist]
    exact hv

/-- The flip's context, before it is found barred (R56). -/
theorem State.dist_enterReversing (s : State) (d : DistrictId) : (s.enterReversing d).dist d =
    (({ s.dist d with polarity := (s.dist d).polarity.toggle } : District).latchFlipped).enter s.control .reversing := by
  rw [State.enterReversing, State.dist_enter_same, State.dist_modDist_same]
  rfl

theorem State.flip_of_free (h : s.hold = false) (hf : (s.feed (s.dist d).feed).state = .up) :
    s.flip d = s.enterReversing d :=
  if_neg (by simp [State.flipBarred, h, hf])

theorem State.flip_of_barred (h : s.hold = true ∨ (s.feed (s.dist d).feed).state ≠ .up) :
    s.flip d = (s.enterReversing d).returnToQueue d :=
  if_pos (by simpa [State.flipBarred] using h)

theorem State.mem_queue_returnToQueue (s : State) (d : DistrictId) : d ∈ (s.returnToQueue d).queue :=
  (insertAfterLast_perm _ d s.queue).mem_iff.mpr List.mem_cons_self

theorem Polarity.toggle_ne (p : Polarity) : p.toggle ≠ p := by cases p <;> decide

/-- A member's flip: what holds of it in either case, and whether it is barred (R56, R57). -/
theorem State.flip_spec {n : SlotId} (h : (s.dist d).incidentSlot = some n) :
    ((s.flip d).dist d).role = (s.dist d).role ∧ ((s.flip d).dist d).attempts = (s.dist d).attempts
      ∧ ((s.flip d).dist d).flags.flipped = true ∧ ((s.flip d).dist d).mark = true
      ∧ ((s.flip d).dist d).polarity ≠ (s.dist d).polarity
      ∧ (s.hold = false ∧ (s.feed (s.dist d).feed).state = .up →
        ((s.flip d).dist d).state = .reversing ∧ ((s.flip d).dist d).level = 16)
      ∧ (s.hold = true ∨ (s.feed (s.dist d).feed).state ≠ .up →
        ((s.flip d).dist d).state = .queued ∧ ((s.flip d).dist d).level = 0 ∧ d ∈ (s.flip d).queue) := by
  have hx := s.dist_enterReversing d
  have hrole : ((s.enterReversing d).dist d).role = (s.dist d).role := by
    rw [hx]
    exact District.role_enter_of_member _ _ h
  have hpolarity := (s.dist d).polarity.toggle_ne
  by_cases hb : s.hold = false ∧ (s.feed (s.dist d).feed).state = .up
  · have hnb : ¬(s.hold = true ∨ (s.feed (s.dist d).feed).state ≠ .up) := by simp [hb]
    obtain ⟨hh, hf⟩ := hb
    rw [State.flip_of_free hh hf]
    refine ⟨hrole, ?_, ?_, ?_, ?_, fun _ => ⟨?_, ?_⟩, fun hbar => absurd hbar hnb⟩
    all_goals rw [hx]
    · rfl
    · rfl
    · rfl
    · exact hpolarity
    · rfl
    · rfl
  · have hbar : s.hold = true ∨ (s.feed (s.dist d).feed).state ≠ .up := by
      cases hh : s.hold <;> simp_all
    have hq : ((s.flip d).dist d) = ((s.enterReversing d).dist d).enter s.control .queued := by
      rw [State.flip_of_barred hbar]
      exact State.dist_enter_same _ d .queued
    have hincident : ((s.enterReversing d).dist d).incidentSlot = some n := by rw [hx]; exact h
    refine ⟨?_, ?_, ?_, ?_, ?_, fun hfree => absurd hfree hb, fun _ => ⟨?_, ?_, ?_⟩⟩
    · rw [hq, District.role_enter_of_member _ _ hincident, hrole]
    · rw [hq, hx]; rfl
    · rw [hq, hx]; rfl
    · rw [hq, hx]; rfl
    · rw [hq, hx]; exact hpolarity
    · rw [hq]; rfl
    · rw [hq]; rfl
    · rw [State.flip_of_barred hbar]
      exact State.mem_queue_returnToQueue _ d

/-- A member's close state keeps its role and its attempt count. -/
theorem State.enterCloseState_keeps {n : SlotId} (h : (s.dist d).incidentSlot = some n) :
    ((s.enterCloseState d).dist d).role = (s.dist d).role
      ∧ ((s.enterCloseState d).dist d).attempts = (s.dist d).attempts := by
  have henter (st : DistrictState) : ((s.enter d st).dist d).role = (s.dist d).role
      ∧ ((s.enter d st).dist d).attempts = (s.dist d).attempts := by
    rw [State.dist_enter_same]
    exact ⟨District.role_enter_of_member _ _ h, rfl⟩
  by_cases hi : (s.dist d).intent = .onManual
  · rw [State.enterCloseState_of_manual hi]
    exact henter .stopped
  · by_cases hl : (s.dist d).attempts = s.control.limit
    · obtain ⟨hlocked, -, -⟩ := State.enterLockout_spec h
      rw [State.enterCloseState_of_limit hi hl, hlocked]
      exact ⟨District.role_enter_of_member s.control .lockout h, rfl⟩
    · by_cases hr : (s.dist d).role = .flip
      · obtain ⟨hrole, hattempts, -⟩ := State.flip_spec h
        rw [State.enterCloseState_of_flip hi hl hr]
        exact ⟨hrole, hattempts⟩
      · rw [State.enterCloseState_of_holdoff hi hl hr]
        exact henter .holdoff

end

end Sys2Proof.Machine
end

section
/-! SUPPORT. Sag notices after a close (R93, R94): what they leave of a feed, and a district that ramps on a sagged
feed goes back to the queue. -/

namespace Sys2Proof.Machine

open Sys2Proof

/-! ### Free orders -/

/-- A free order of a list with a in it takes some of the other items before a and the rest after it. -/
theorem State.inFreeOrder_split {α : Type} (s : State) {l : List α} (f : α → State → State) {a : α} (ha : a ∈ l)
    (hl : l.Nodup) : ∃ (c : Nat) (before after : List α), (∀ b ∈ before, b ∈ l ∧ b ≠ a)
      ∧ (∀ b ∈ after, b ∈ l ∧ b ≠ a)
      ∧ s.inFreeOrder l f = after.foldl (fun t b => f b t)
        (f a (before.foldl (fun t b => f b t) { s with choices := c })) := by
  have horder : ∃ (c : Nat) (order : List α), order.Perm l
      ∧ s.inFreeOrder l f = order.foldl (fun t b => f b t) { s with choices := c } := by
    unfold State.inFreeOrder
    split
    · exact ⟨s.choices, l, .refl l, rfl⟩
    · exact ⟨_, _, arrangeFrom_perm _ _ l, rfl⟩
  obtain ⟨c, order, hperm, heq⟩ := horder
  obtain ⟨before, after, rfl⟩ := List.append_of_mem (hperm.mem_iff.mpr ha)
  have hnodup : (a :: (before ++ after)).Nodup := (List.perm_middle.nodup_iff).mp (hperm.nodup_iff.mpr hl)
  have hnot : a ∉ before ++ after := (List.nodup_cons.mp hnodup).1
  refine ⟨c, before, after, fun b hb => ⟨hperm.mem_iff.mp (by simp [hb]), ?_⟩,
    fun b hb => ⟨hperm.mem_iff.mp (by simp [hb]), ?_⟩, ?_⟩
  · rintro rfl; exact hnot (by simp [hb])
  · rintro rfl; exact hnot (by simp [hb])
  · rw [heq, List.foldl_append, List.foldl_cons]

/-! ### What a sag notice can do -/

theorem State.sagNotice_of_up (s : State) (k : FeedId) (h : (s.feed k).state = .up) :
    State.sagNotice k s = (s.startSettling k).feedLeavesUp k := by
  rw [State.sagNotice, h]

theorem State.sagNotice_of_settling (s : State) (k : FeedId) (h : (s.feed k).state = .settling) :
    State.sagNotice k s = s.restartSettling k := by
  rw [State.sagNotice, h]

theorem State.sagNotice_of_down (s : State) (k : FeedId) (h : (s.feed k).state = .down) :
    State.sagNotice k s = s := by
  rw [State.sagNotice, h]

theorem calm_feedLeavesUp (s : State) (k : FeedId) : Calm s (s.feedLeavesUp k) :=
  calm_inFreeOrder _ _ (fun d _ t => calm_returnClaim d t) s

/-- A property of a state that a replacement of a feed, a return claim and a choice keep is kept by a sag
notice. -/
theorem State.sagNotice_keeps {P : State → Prop} (hfeed : ∀ s k f, P s → P (s.modFeed k f))
    (hclaim : ∀ d s, P s → P (State.returnClaim d s)) (hchoice : ∀ s : State, P s → P { s with choices := s.choices + 1 })
    (k : FeedId) (s : State) (h : P s) : P (State.sagNotice k s) := by
  cases hs : (s.feed k).state with
  | up =>
    rw [s.sagNotice_of_up k hs]
    exact State.inFreeOrder_keeps _ _ hchoice (fun d _ t ht => hclaim d t ht) _ (hfeed _ _ _ h)
  | settling =>
    rw [s.sagNotice_of_settling k hs]
    exact hfeed _ _ _ (hfeed _ _ _ h)
  | down => rwa [s.sagNotice_of_down k hs]

/-- No close, and no sag notice after it, touches the control words, the memory or the node table. -/
def SameOutside (s t : State) : Prop := t.control = s.control ∧ t.mem = s.mem ∧ t.nodes = s.nodes

theorem Calm.sameOutside {s t : State} (h : Calm s t) : SameOutside s t := ⟨h.control, h.mem, h.nodes⟩

theorem SameOutside.trans {s t u : State} (h : SameOutside s t) (g : SameOutside t u) : SameOutside s u := by
  obtain ⟨hcontrol, hmem, hnodes⟩ := h
  obtain ⟨gcontrol, gmem, gnodes⟩ := g
  exact ⟨gcontrol.trans hcontrol, gmem.trans hmem, gnodes.trans hnodes⟩

theorem sameOutside_sagNotice (k : FeedId) {s t : State} (h : SameOutside s t) :
    SameOutside s (State.sagNotice k t) :=
  State.sagNotice_keeps (P := SameOutside s) (fun _ _ _ hu => hu)
    (fun d u hu => hu.trans (calm_returnClaim d u).sameOutside) (fun _ hu => hu) k t h

theorem SlotIn.sagNotice {A : SlotState → Prop} (hclosing : A .closing) (hfree : A .free) {n : SlotId} {s : State}
    (h : SlotIn A n s) (k : FeedId) : SlotIn A n (State.sagNotice k s) :=
  State.sagNotice_keeps (fun _ _ _ ht => ht.of_slots rfl) (fun d _ ht => ht.returnClaim hclosing hfree d)
    (fun _ ht => ht.of_slots rfl) k s h

/-! ### The feeds -/

/-- Feed k's state, settle time, settle timer and the note of its restart stand. -/
structure FeedStands (k : FeedId) (s t : State) : Prop where
  state : (t.feed k).state = (s.feed k).state
  settleTime : (t.feed k).settleTime = (s.feed k).settleTime
  settleTimer : (t.feed k).settleTimer = (s.feed k).settleTimer
  settleRestarted : (t.feed k).settleRestarted = (s.feed k).settleRestarted

theorem FeedStands.refl (k : FeedId) (s : State) : FeedStands k s s := ⟨rfl, rfl, rfl, rfl⟩

theorem FeedStands.trans {k : FeedId} {s t u : State} (h : FeedStands k s t) (g : FeedStands k t u) :
    FeedStands k s u :=
  ⟨g.state.trans h.state, g.settleTime.trans h.settleTime, g.settleTimer.trans h.settleTimer,
    g.settleRestarted.trans h.settleRestarted⟩

theorem Calm.feedStands {s t : State} (h : Calm s t) (k : FeedId) : FeedStands k s t :=
  ⟨(h.feed k).state, (h.feed k).settleTime, (h.feed k).settleTimer, (h.feed k).settleRestarted⟩

theorem FeedStands.of_feed {k : FeedId} {s t : State} (h : t.feed k = s.feed k) : FeedStands k s t := by
  constructor <;> rw [h]

theorem State.feed_startSettling_other (s : State) {j k : FeedId} (h : k ≠ j) :
    (s.startSettling j).feed k = s.feed k := s.feed_modFeed_other j _ k h

theorem State.feed_restartSettling_other (s : State) {j k : FeedId} (h : k ≠ j) :
    (s.restartSettling j).feed k = s.feed k :=
  (State.feed_modFeed_other _ j _ k h).trans (s.feed_startSettling_other h)

/-- A sag notice touches its own feed alone, and that only if it is not DOWN. -/
theorem feedStands_sagNotice {j k : FeedId} (s : State) (h : j ≠ k ∨ (s.feed k).state = .down) :
    FeedStands k s (State.sagNotice j s) := by
  by_cases hj : j = k
  · subst hj
    rw [s.sagNotice_of_down j (h.resolve_left (fun hne => hne rfl))]
    exact .refl j s
  · have hk : k ≠ j := fun he => hj he.symm
    cases hs : (s.feed j).state with
    | up =>
      rw [s.sagNotice_of_up j hs]
      exact (FeedStands.of_feed (s.feed_startSettling_other hk)).trans ((calm_feedLeavesUp _ j).feedStands k)
    | settling =>
      rw [s.sagNotice_of_settling j hs]
      exact .of_feed (s.feed_restartSettling_other hk)
    | down =>
      rw [s.sagNotice_of_down j hs]
      exact .refl k s

/-- Its own feed, UP or SETTLING, is SETTLING with the timer started from its beginning (R93, R95). -/
theorem State.feed_sagNotice_same (s : State) (k : FeedId) (h : (s.feed k).state ≠ .down) :
    ((State.sagNotice k s).feed k).state = .settling
      ∧ ((State.sagNotice k s).feed k).settleTimer = some (s.feed k).settleMicros
      ∧ ((State.sagNotice k s).feed k).settleRestarted = decide ((s.feed k).state = .settling) := by
  have hstart : (s.startSettling k).feed k =
      { s.feed k with state := .settling, settleTimer := some (s.feed k).settleMicros, settleRestarted := false } :=
    s.feed_modFeed_same k _
  cases hs : (s.feed k).state with
  | up =>
    have hcalm := (calm_feedLeavesUp (s.startSettling k) k).feedStands k
    rw [s.sagNotice_of_up k hs, hcalm.state, hcalm.settleTimer, hcalm.settleRestarted, hstart]
    exact ⟨rfl, rfl, rfl⟩
  | settling =>
    have hrestart : (s.restartSettling k).feed k = { (s.startSettling k).feed k with settleRestarted := true } :=
      State.feed_modFeed_same _ k _
    rw [s.sagNotice_of_settling k hs, hrestart, hstart]
    exact ⟨rfl, rfl, rfl⟩
  | down => exact absurd hs h

section
variable {k : FeedId} (s : State) {l : List FeedId}

theorem feedStands_sagNotices (h : k ∉ l ∨ (s.feed k).state = .down) :
    FeedStands k s (s.inFreeOrder l State.sagNotice) := by
  refine State.inFreeOrder_keeps (P := FeedStands k s) l _ (fun t ht => ht.trans ⟨rfl, rfl, rfl, rfl⟩)
    (fun j hj t ht => ht.trans (feedStands_sagNotice t ?_)) s (.refl k s)
  rcases h with h | h
  · exact .inl (fun he => h (he ▸ hj))
  · exact .inr (ht.state.trans h)

/-- Of several sag notices, each of its own feed, the one for feed k settles it. -/
theorem State.feed_sagNotices (hk : k ∈ l) (hl : l.Nodup) (h : (s.feed k).state ≠ .down) :
    ((s.inFreeOrder l State.sagNotice).feed k).state = .settling
      ∧ ((s.inFreeOrder l State.sagNotice).feed k).settleTimer = some (s.feed k).settleMicros
      ∧ ((s.inFreeOrder l State.sagNotice).feed k).settleRestarted = decide ((s.feed k).state = .settling) := by
  obtain ⟨c, before, after, hbefore, hafter, horder⟩ := s.inFreeOrder_split State.sagNotice hk hl
  have hothers (m : List FeedId) (hm : ∀ b ∈ m, b ∈ l ∧ b ≠ k) (t : State) :
      FeedStands k t (m.foldl (fun t b => State.sagNotice b t) t) :=
    foldl_keeps (P := FeedStands k t) (fun t b => State.sagNotice b t) m
      (fun b hb u hu => hu.trans (feedStands_sagNotice u (.inl (hm b hb).2))) t (.refl k t)
  have hchosen : FeedStands k s { s with choices := c } := ⟨rfl, rfl, rfl, rfl⟩
  have hpre : FeedStands k s (before.foldl (fun t b => State.sagNotice b t) { s with choices := c }) :=
    hchosen.trans (hothers before hbefore _)
  rw [horder]
  generalize before.foldl (fun t b => State.sagNotice b t) { s with choices := c } = u at hpre ⊢
  have hpost := hothers after hafter (State.sagNotice k u)
  have hown := u.feed_sagNotice_same k (by rw [hpre.state]; exact h)
  rw [hpre.state, show (u.feed k).settleMicros = (s.feed k).settleMicros by
    rw [Feed.settleMicros, hpre.settleTime]; rfl] at hown
  rw [hpost.state, hpost.settleTimer, hpost.settleRestarted]
  exact hown

end

/-! ### A district that ramps on a sagged feed (R66, R83, R94) -/

/-- d ramps on engine e alone, on feed k, and its context names the feed and passes its check. -/
structure RampsOn (d : DistrictId) (e : EngineId) (k : FeedId) (s : State) : Prop where
  state : (s.dist d).state = .ramping
  engine : (s.engine e).district = some d
  engineFeed : (s.engine e).feed = k
  alone : ∀ f, f ≠ e → (s.engine f).district ≠ some d
  feed : (s.dist d).feed = k
  passes : s.passes d
  outside : d ∉ s.queue

theorem RampsOn.resting {d : DistrictId} {e : EngineId} {k : FeedId} {s : State} (h : RampsOn d e k s) :
    Resting d s :=
  ⟨by rw [h.state]; decide, .inl h.outside⟩

theorem RampsOn.apart {d : DistrictId} {e : EngineId} {k : FeedId} {s t : State} (h : RampsOn d e k s)
    (g : Apart d s t) : RampsOn d e k t := by
  have he := g.engine e (.inl h.engine)
  refine ⟨g.state.trans h.state, he ▸ h.engine, he ▸ h.engineFeed, fun f hf hd => ?_, g.feedOf.trans h.feed, ?_,
    fun hq => h.outside (g.queue.mp hq)⟩
  · exact h.alone f hf (g.engine f (.inr hd) ▸ hd)
  · have hpasses := h.passes
    unfold State.passes State.checkFails at hpasses ⊢
    rw [g.dist]
    exact hpasses

/-- d as its return to the queue in s leaves it: QUEUED on no engine, its feed not UP, mark and count as in s. -/
structure Requeued (d : DistrictId) (s t : State) : Prop where
  state : (t.dist d).state = .queued
  queue : d ∈ t.queue
  level : (t.dist d).level = 0
  mark : (t.dist d).mark = (s.dist d).mark
  attempts : (t.dist d).attempts = (s.dist d).attempts
  engine : ∀ e, (t.engine e).district ≠ some d
  feed : (t.feed (t.dist d).feed).state ≠ .up

theorem Requeued.resting {d : DistrictId} {s t : State} (h : Requeued d s t) : Resting d t :=
  ⟨by rw [h.state]; decide, .inr h.feed⟩

theorem Requeued.apart {d : DistrictId} {s t u : State} (h : Requeued d s t) (g : Apart d t u) :
    Requeued d s u where
  state := g.state.trans h.state
  queue := g.queue.mpr h.queue
  level := by rw [g.dist]; exact h.level
  mark := by rw [g.dist]; exact h.mark
  attempts := by rw [g.dist]; exact h.attempts
  engine e he := h.engine e (g.engine e (.inr he) ▸ he)
  feed := by rw [g.feedOf]; exact g.feeds _ h.feed

/-- What d was is judged by its mark and its count alone. -/
theorem Requeued.of_apart {d : DistrictId} {s s' t : State} (g : Apart d s s') (h : Requeued d s' t) :
    Requeued d s t :=
  { h with
    mark := by rw [h.mark, g.dist]
    attempts := by rw [h.attempts, g.dist] }

/-- The engine of a district that one engine alone holds. -/
theorem RampsOn.engineOf {d : DistrictId} {e : EngineId} {k : FeedId} {s : State} (h : RampsOn d e k s) :
    s.engineOf d = some e := by
  cases hf : s.engineOf d with
  | none =>
    rw [State.engineOf, List.find?_eq_none] at hf
    exact absurd (by simpa using h.engine) (hf e (List.mem_finRange e))
  | some f =>
    by_contra hne
    exact h.alone f (fun he => hne (by rw [he])) (State.district_of_engineOf hf)

/-- The return claim of a ramping district whose feed is no longer UP. -/
theorem RampsOn.returnClaim {d : DistrictId} {e : EngineId} {k : FeedId} {s : State} (h : RampsOn d e k s)
    (hk : (s.feed k).state ≠ .up) : Requeued d s (State.returnClaim d s) := by
  have heffect : s.returnEffect d = (s.freeEngine e).returnToQueue d := by
    rw [State.returnEffect, h.state]
    simp only [State.freeEngineOf, h.engineOf]
  have hdist : (s.returnEffect d).dist d = (s.dist d).enter s.control .queued := by
    rw [heffect]
    exact State.dist_enter_same _ d .queued
  have hengine (f : EngineId) : ((s.returnEffect d).engine f).district ≠ some d := by
    have hfree : (s.returnEffect d).engine f = (s.freeEngine e).engine f := by rw [heffect]; rfl
    rw [hfree, State.freeEngine, State.engine_modEngine]
    split
    · simp
    · next hf => exact h.alone f hf
  have hfeed : ((s.returnEffect d).dist d).feed = k := by rw [hdist]; exact h.feed
  have hreturned : Requeued d s (s.returnEffect d) := by
    refine ⟨?_, ?_, ?_, ?_, ?_, hengine, ?_⟩
    · rw [hdist]; rfl
    · rw [heffect]; exact State.mem_queue_returnToQueue _ d
    · rw [hdist]; rfl
    · rw [hdist]; rfl
    · rw [hdist]; rfl
    · rw [hfeed, ((calm_returnEffect s d).feed k).state]; exact hk
  rw [State.returnClaim, if_pos (.inl h.state), s.claim_of_passes d _ h.passes]
  exact hreturned.apart (apart_finish s d hreturned.resting)

/-- A QUEUED district takes no return claim. -/
theorem apart_returnClaim_of_queued {d : DistrictId} {s : State} (h : (s.dist d).state = .queued) (hr : Resting d s)
    (e : DistrictId) : Apart d s (State.returnClaim e s) := by
  by_cases he : e = d
  · subst he
    rw [State.returnClaim, if_neg (by simp [h])]
    exact .refl e s
  · exact apart_returnClaim he hr

theorem apart_modFeed (d : DistrictId) (s : State) (k : FeedId) (f : Feed → Feed)
    (hf : (s.feed k).state ≠ .up → (f (s.feed k)).state ≠ .up) : Apart d s (s.modFeed k f) := by
  refine ⟨rfl, .rfl, fun _ _ => rfl, fun j hj => ?_⟩
  rw [State.feed_modFeed]
  split
  · next h => subst h; exact hf hj
  · exact hj

theorem apart_choices (d : DistrictId) (s : State) (c : Nat) : Apart d s { s with choices := c } :=
  ⟨rfl, .rfl, fun _ _ => rfl, fun _ h => h⟩

theorem apart_startSettling (d : DistrictId) (s : State) (k : FeedId) : Apart d s (s.startSettling k) :=
  apart_modFeed d s k _ (fun _ => by simp)

/-- Claims of other districts, or any at a QUEUED one, leave d apart. -/
theorem apart_feedLeavesUp {d : DistrictId} {s : State} {k : FeedId} (hr : Resting d s)
    (h : d ∉ s.onFeedLeaving k ∨ (s.dist d).state = .queued) : Apart d s (s.feedLeavesUp k) := by
  refine State.inFreeOrder_keeps (P := Apart d s) _ _ (fun t ht => ht.trans (apart_choices d t _))
    (fun e he t ht => ht.trans ?_) s (.refl d s)
  rcases h with h | h
  · exact apart_returnClaim (fun hed => h (hed ▸ he)) (ht.resting hr)
  · exact apart_returnClaim_of_queued (ht.state.trans h) (ht.resting hr) e

/-- A sag notice leaves apart a district that the leaving of its feed does not concern. -/
theorem apart_sagNotice {d : DistrictId} {s : State} {k : FeedId} (hr : Resting d s)
    (h : d ∉ (s.startSettling k).onFeedLeaving k ∨ (s.dist d).state = .queued) :
    Apart d s (State.sagNotice k s) := by
  have hstart := apart_startSettling d s k
  cases hs : (s.feed k).state with
  | up =>
    rw [s.sagNotice_of_up k hs]
    exact hstart.trans (apart_feedLeavesUp (hstart.resting hr) h)
  | settling =>
    rw [s.sagNotice_of_settling k hs]
    exact hstart.trans (apart_modFeed d _ k _ (fun h => h))
  | down =>
    rw [s.sagNotice_of_down k hs]
    exact .refl d s

/-- A ramping district is concerned by the leaving of its engine's feed. -/
theorem RampsOn.mem_onFeedLeaving {d : DistrictId} {e : EngineId} {k j : FeedId} {s : State} (h : RampsOn d e k s) :
    d ∈ s.onFeedLeaving j ↔ j = k := by
  have hengine : (indices 4).any (fun f => (s.engine f).district == some d && (s.engine f).feed == j) = true ↔
      j = k := by
    rw [List.any_eq_true]
    constructor
    · rintro ⟨f, -, hf⟩
      rw [Bool.and_eq_true, beq_iff_eq, beq_iff_eq] at hf
      obtain ⟨hd, hfeed⟩ := hf
      have hfe : f = e := by
        by_contra hne
        exact h.alone f hne hd
      rw [← hfeed, hfe, h.engineFeed]
    · rintro rfl
      exact ⟨e, List.mem_finRange e, by simp [h.engine, h.engineFeed]⟩
  rw [State.onFeedLeaving, List.mem_filter]
  simp [h.state, hengine]

/-- The sag notice of the feed on which d ramps (R94). -/
theorem RampsOn.sagNotice {d : DistrictId} {e : EngineId} {k : FeedId} {s : State} (h : RampsOn d e k s)
    (hk : (s.feed k).state = .up) : Requeued d s (State.sagNotice k s) := by
  have hstart := apart_startSettling d s k
  have hramps := h.apart hstart
  have hsettling : ((s.startSettling k).feed k).state ≠ .up := by
    rw [show (s.startSettling k).feed k = _ from s.feed_modFeed_same k _]
    simp
  rw [s.sagNotice_of_up k hk, State.feedLeavesUp]
  generalize s.startSettling k = u at hstart hramps hsettling
  have hnodup : (u.onFeedLeaving k).Nodup := (List.nodup_finRange 32).filter _
  obtain ⟨c, before, after, hbefore, -, horder⟩ :=
    u.inFreeOrder_split State.returnClaim (hramps.mem_onFeedLeaving.mpr rfl) hnodup
  rw [horder]
  have hpre : Apart d u (before.foldl (fun t b => State.returnClaim b t) { u with choices := c }) :=
    foldl_keeps (P := Apart d u) (fun t b => State.returnClaim b t) before
      (fun b hb t ht => ht.trans (apart_returnClaim (hbefore b hb).2 (ht.resting hramps.resting))) _
      (apart_choices d u c)
  have hown := (hramps.apart hpre).returnClaim (hpre.feeds k hsettling)
  exact foldl_keeps (P := Requeued d s) (fun t b => State.returnClaim b t) after
    (fun b _ t ht => ht.apart (apart_returnClaim_of_queued ht.state ht.resting b)) _
    (.of_apart (hstart.trans hpre) hown)

/-- Of several sag notices, each of its own feed, the one for the feed on which d ramps puts d back. -/
theorem RampsOn.sagNotices {d : DistrictId} {e : EngineId} {k : FeedId} {s : State} (h : RampsOn d e k s)
    (hk : (s.feed k).state = .up) {l : List FeedId} (hmem : k ∈ l) (hl : l.Nodup) :
    Requeued d s (s.inFreeOrder l State.sagNotice) := by
  obtain ⟨c, before, after, hbefore, -, horder⟩ := s.inFreeOrder_split State.sagNotice hmem hl
  rw [horder]
  have hpre := foldl_keeps (P := fun t => Apart d s t ∧ FeedStands k s t) (fun t b => State.sagNotice b t) before
    (fun b hb t ⟨ht, hf⟩ => by
      obtain ⟨-, hne⟩ := hbefore b hb
      have hramps := h.apart ht
      refine ⟨ht.trans (apart_sagNotice hramps.resting (.inl ?_)), hf.trans (feedStands_sagNotice t (.inl hne))⟩
      rw [(hramps.apart (apart_startSettling d t b)).mem_onFeedLeaving]
      exact hne)
    { s with choices := c } ⟨apart_choices d s c, ⟨rfl, rfl, rfl, rfl⟩⟩
  obtain ⟨hapart, hfeed⟩ := hpre
  have hown := (h.apart hapart).sagNotice (hfeed.state.trans hk)
  exact foldl_keeps (P := Requeued d s) (fun t b => State.sagNotice b t) after
    (fun b _ t ht => ht.apart (apart_sagNotice ht.resting (.inr ht.state))) _ (.of_apart hapart hown)

end Sys2Proof.Machine
end

section
/-! SUPPORT. The gathering timer's expiry (R38 to R44, R93). -/

namespace Sys2Proof.Machine

open Sys2Proof

/-! ### What a close leaves of a member (R43) -/

section
variable {s : State} {n : SlotId}

theorem State.members_enterCloseStates (s : State) (n : SlotId) :
    ((s.enterCloseStates n).slot n).members = s.closingMembers n := by
  obtain ⟨lockouts, h⟩ := s.slot_enterCloseStates n
  rw [h]
  rfl

variable {m : Member} (hm : m ∈ s.closingMembers n)
  (hone : ((s.slot n).members.filter (fun p => p.district == m.district)).length = 1)
include hm hone

/-- A member that left TRIPPED takes its role and keeps its state (log 8). -/
theorem State.dist_close_of_stays (h : (s.dist m.district).state ≠ .tripped) :
    (s.enterCloseStates n).dist m.district =
      { s.dist m.district with role := if m.withdrawn then (s.dist m.district).role else m.role } := by
  obtain ⟨t, -, hdist, haside⟩ := s.close_at_one_entry n hm hone
  have hgiven : t.dist m.district =
      { s.dist m.district with role := if m.withdrawn then (s.dist m.district).role else m.role } := by
    rw [hdist]
    split <;> rfl
  rw [haside.dist, State.enterMember_of_stays (by rw [hgiven]; exact h), hgiven]

/-- A TRIPPED member before it enters its state: its context and its check. -/
theorem State.close_of_tripped (h : (s.dist m.district).state = .tripped) :
    ∃ t : State, Calm s t ∧ (t.dist m.district).state = .tripped
      ∧ (t.passes m.district ↔ s.passes m.district)
      ∧ (m.withdrawn = false → t.dist m.district = { s.dist m.district with role := m.role })
      ∧ Aside m.district (t.enterMember m) (s.enterCloseStates n) := by
  obtain ⟨t, hcalm, hdist, haside⟩ := s.close_at_one_entry n hm hone
  refine ⟨t, hcalm, ?_, ?_, fun hw => by simpa [hw] using hdist, haside⟩
  · rw [hdist]
    split <;> exact h
  · rw [State.passes, State.passes, State.checkFails, State.checkFails, hdist]
    split <;> rfl

/-- A TRIPPED member whose check fails (R21, R22). -/
theorem State.close_of_fails (h : (s.dist m.district).state = .tripped) (hp : ¬s.passes m.district) :
    ((s.enterCloseStates n).dist m.district).state = .checkHold
      ∧ ((s.enterCloseStates n).dist m.district).invalid = true := by
  obtain ⟨t, -, htripped, hpasses, -, haside⟩ := State.close_of_tripped hm hone h
  obtain ⟨-, -, hmoved⟩ := checkErrorTaken_checkError t m.district
  obtain ⟨-, herror⟩ := hmoved (by rw [htripped]; decide)
  rw [haside.dist, State.enterMember_of_fails htripped (fun ht => hp (hpasses.mp ht)), herror, State.dist, get_put_same]
  exact ⟨rfl, rfl⟩

/-- A TRIPPED member that is withdrawn (R43). -/
theorem State.close_of_withdrawn (h : (s.dist m.district).state = .tripped) (hp : s.passes m.district)
    (hw : m.withdrawn = true) :
    ((s.enterCloseStates n).dist m.district).state = .off ∧ ((s.enterCloseStates n).dist m.district).level = 0
      ∧ ((s.enterCloseStates n).dist m.district).mark = false := by
  obtain ⟨t, -, htripped, hpasses, -, haside⟩ := State.close_of_tripped hm hone h
  rw [haside.dist, State.enterMember_of_withdrawn htripped (hpasses.mpr hp) hw, State.dist_enter_same]
  exact ⟨rfl, rfl, rfl⟩

/-- A TRIPPED member that enters its close state from a context with its role in it. -/
theorem State.close_of_passes (h : (s.dist m.district).state = .tripped) (hp : s.passes m.district)
    (hw : m.withdrawn = false) : ∃ t : State, Calm s t
      ∧ t.dist m.district = { s.dist m.district with role := m.role }
      ∧ Aside m.district (t.enterCloseState m.district) (s.enterCloseStates n) := by
  obtain ⟨t, hcalm, htripped, hpasses, hdist, haside⟩ := State.close_of_tripped hm hone h
  rw [State.enterMember_of_passes htripped (hpasses.mpr hp) hw] at haside
  exact ⟨t, hcalm, hdist hw, haside⟩

variable (h : (s.dist m.district).state = .tripped) (hp : s.passes m.district) (hw : m.withdrawn = false)
include h hp hw

/-- Cases 3 to 6 of R43 keep the role and the attempt count. -/
theorem State.close_keeps_role_and_count (hslot : (s.dist m.district).incidentSlot = some n) :
    ((s.enterCloseStates n).dist m.district).role = m.role
      ∧ ((s.enterCloseStates n).dist m.district).attempts = (s.dist m.district).attempts := by
  obtain ⟨t, -, hdist, haside⟩ := State.close_of_passes hm hone h hp hw
  obtain ⟨hrole, hattempts⟩ := t.enterCloseState_keeps (d := m.district) (n := n) (by rw [hdist]; exact hslot)
  rw [haside.dist, hrole, hattempts, hdist]
  exact ⟨rfl, rfl⟩

/-- Case 3 of R43. -/
theorem State.close_of_manual (hi : (s.dist m.district).intent = .onManual) :
    ((s.enterCloseStates n).dist m.district).state = .stopped := by
  obtain ⟨t, -, hdist, haside⟩ := State.close_of_passes hm hone h hp hw
  rw [haside.dist, State.enterCloseState_of_manual (by rw [hdist]; exact hi), State.dist_enter_same]
  rfl

/-- Case 4 of R43. -/
theorem State.close_of_limit (hslot : (s.dist m.district).incidentSlot = some n)
    (hi : (s.dist m.district).intent ≠ .onManual) (hl : (s.dist m.district).attempts = s.control.limit) :
    ((s.enterCloseStates n).dist m.district).state = .lockout
      ∧ ((s.enterCloseStates n).dist m.district).flags.lockoutEntered = true
      ∧ ((s.enterCloseStates n).dist m.district).intent = .off
      ∧ ((s.enterCloseStates n).slot n).lockouts.getLsbD m.district.val = true
      ∧ ((s.dist m.district).invalid = false →
        IntentPos.district m.district 0 ∈ (s.enterCloseStates n).corrections) := by
  obtain ⟨t, hcalm, hdist, haside⟩ := State.close_of_passes hm hone h hp hw
  have hlimit : (t.dist m.district).attempts = t.control.limit := by rw [hdist, hcalm.control]; exact hl
  rw [State.enterCloseState_of_limit (by rw [hdist]; exact hi) hlimit] at haside
  obtain ⟨hlocked, hset, hmark⟩ := t.enterLockout_spec (d := m.district) (n := n) (by rw [hdist]; exact hslot)
  rw [haside.dist, hlocked]
  refine ⟨rfl, rfl, ?_, haside.lockouts n hset, fun hv => (haside.marks 0).mpr (hmark ?_)⟩
  · exact District.intent_setWord_clear (((t.dist m.district).enter t.control .lockout).latchLockout)
  · rw [hdist]; exact hv

variable (hi : (s.dist m.district).intent ≠ .onManual) (hl : (s.dist m.district).attempts ≠ s.control.limit)
include hi hl

/-- Case 5 of R43: the flip (R56, R57). -/
theorem State.close_of_flip (hslot : (s.dist m.district).incidentSlot = some n) (hr : m.role = .flip) :
    ((s.enterCloseStates n).dist m.district).flags.flipped = true
      ∧ ((s.enterCloseStates n).dist m.district).mark = true
      ∧ ((s.enterCloseStates n).dist m.district).polarity ≠ (s.dist m.district).polarity
      ∧ (s.hold = false ∧ (s.feed (s.dist m.district).feed).state = .up →
        ((s.enterCloseStates n).dist m.district).state = .reversing
          ∧ ((s.enterCloseStates n).dist m.district).level = 16)
      ∧ (s.hold = true ∨ (s.feed (s.dist m.district).feed).state ≠ .up →
        ((s.enterCloseStates n).dist m.district).state = .queued
          ∧ ((s.enterCloseStates n).dist m.district).level = 0 ∧ m.district ∈ (s.enterCloseStates n).queue) := by
  obtain ⟨t, hcalm, hdist, haside⟩ := State.close_of_passes hm hone h hp hw
  have hlimit : (t.dist m.district).attempts ≠ t.control.limit := by rw [hdist, hcalm.control]; exact hl
  rw [State.enterCloseState_of_flip (by rw [hdist]; exact hi) hlimit (by rw [hdist]; exact hr)] at haside
  obtain ⟨-, -, hflag, hmark, hpolarity, hfree, hbarred⟩ :=
    t.flip_spec (d := m.district) (n := n) (by rw [hdist]; exact hslot)
  have hfeed : (t.dist m.district).feed = (s.dist m.district).feed := by rw [hdist]; rfl
  rw [hcalm.hold, (hcalm.feed _).state, hfeed] at hfree hbarred
  rw [haside.dist, haside.queue]
  rw [hdist] at hpolarity
  exact ⟨hflag, hmark, hpolarity, hfree, hbarred⟩

/-- Case 6 of R43: HOLDOFF for min(base × 2^count, 255) units of 100 ms (R18). -/
theorem State.close_of_holdoff (hr : m.role ≠ .flip) :
    ((s.enterCloseStates n).dist m.district).state = .holdoff
      ∧ ((s.enterCloseStates n).dist m.district).level = 0
      ∧ ((s.enterCloseStates n).dist m.district).holdoffTimer =
        some (min (field s.control.holdoffBase 0 8 * 2 ^ (s.dist m.district).attempts) 255 * 100000) := by
  obtain ⟨t, hcalm, hdist, haside⟩ := State.close_of_passes hm hone h hp hw
  have hlimit : (t.dist m.district).attempts ≠ t.control.limit := by rw [hdist, hcalm.control]; exact hl
  rw [haside.dist, State.enterCloseState_of_holdoff (by rw [hdist]; exact hi) hlimit (by rw [hdist]; exact hr),
    State.dist_enter_same, hdist, hcalm.control]
  exact ⟨rfl, rfl, rfl⟩

end

/-! ### The expiry (R38) -/

/-- The state with slot n's gathering timer stopped, from which the close is taken. -/
def State.gatheringStopped (s : State) (n : SlotId) : State :=
  s.modSlot n (fun x => { x with timer := .none })

theorem exec_gatheringTimerExpiry {s : State} {n : SlotId} (hr : s.inReset = false)
    (hg : (s.slot n).state = .gathering) (ht : (s.slot n).timer.isSome = true) :
    exec (.gatheringTimerExpiry n) s =
      .next (if (s.slot n).roundSeen then (s.gatheringStopped n).closeGathering n else s.gatheringStopped n) := by
  have h : exec (.gatheringTimerExpiry n) s = .next (s.running (State.gatheringExpires n)) := rfl
  rw [h, s.running_of_run _ hr, State.gatheringExpires, if_pos ⟨hg, ht⟩]
  rfl

/-- With the round seen, the close is taken from the state with the timer stopped (R38). -/
theorem exec_gatheringTimerExpiry_of_seen {s : State} {n : SlotId} (hr : s.inReset = false)
    (hg : (s.slot n).state = .gathering) (ht : (s.slot n).timer.isSome = true) (hseen : (s.slot n).roundSeen = true) :
    exec (.gatheringTimerExpiry n) s =
      .next ((s.gatheringStopped n).afterClose n ((s.gatheringStopped n).enterCloseStates n)) := by
  rw [exec_gatheringTimerExpiry hr hg ht, if_pos hseen]
  rfl

section
variable (s : State) (n : SlotId)

theorem State.slot_gatheringStopped : (s.gatheringStopped n).slot n = { s.slot n with timer := .none } :=
  s.slot_modSlot_same n _

theorem State.dist_gatheringStopped (d : DistrictId) : (s.gatheringStopped n).dist d = s.dist d := rfl

theorem State.checkFails_gatheringStopped (d : DistrictId) :
    (s.gatheringStopped n).checkFails d = s.checkFails d := rfl

theorem State.feed_gatheringStopped (k : FeedId) : (s.gatheringStopped n).feed k = s.feed k := rfl

theorem State.control_gatheringStopped : (s.gatheringStopped n).control = s.control := rfl

theorem State.hold_gatheringStopped : (s.gatheringStopped n).hold = s.hold := rfl

/-- The gathering timer has no part in the attribution. -/
theorem State.attribute_gatheringStopped :
    (s.gatheringStopped n).attribute ((s.gatheringStopped n).slot n) = s.attribute (s.slot n) := by
  rw [s.slot_gatheringStopped]
  rfl

theorem State.saggedFeeds_gatheringStopped :
    (s.gatheringStopped n).saggedFeeds ((s.gatheringStopped n).slot n) = s.saggedFeeds (s.slot n) := by
  rw [s.slot_gatheringStopped]
  rfl

theorem State.slot_close : ∃ lockouts, ((s.gatheringStopped n).enterCloseStates n).slot n =
    { (s.slot n).attributed (s.attribute (s.slot n)) with state := .recovering, lockouts := lockouts } := by
  obtain ⟨lockouts, h⟩ := (s.gatheringStopped n).slot_enterCloseStates n
  rw [s.attribute_gatheringStopped, s.slot_gatheringStopped] at h
  exact ⟨lockouts, h⟩

/-- What the close fixes in the slot (R40 to R42). -/
theorem State.slot_close_fields :
    (((s.gatheringStopped n).enterCloseStates n).slot n).state = .recovering
      ∧ (((s.gatheringStopped n).enterCloseStates n).slot n).cls = some (s.attribute (s.slot n)).cls
      ∧ (((s.gatheringStopped n).enterCloseStates n).slot n).origin = (s.slot n).originOf
      ∧ (((s.gatheringStopped n).enterCloseStates n).slot n).suspects =
        ((s.slot n).attributed (s.attribute (s.slot n))).suspects
      ∧ (((s.gatheringStopped n).enterCloseStates n).slot n).members =
        ((s.slot n).attributed (s.attribute (s.slot n))).members := by
  obtain ⟨lockouts, h⟩ := s.slot_close n
  rw [h]
  exact ⟨rfl, rfl, rfl, rfl, rfl⟩

theorem State.entries_gatheringStopped (d : DistrictId) :
    (((s.gatheringStopped n).slot n).members.filter (fun p => p.district == d)).length =
      ((s.slot n).members.filter (fun p => p.district == d)).length := by
  rw [s.slot_gatheringStopped]

/-- The state after a close and the scan it occasions, before any sag notice. -/
def State.closeSettled : State :=
  (s.gatheringStopped n).rescan (settleSlot 33 n ((s.gatheringStopped n).enterCloseStates n))

theorem calm_closeSettled : Calm s (s.closeSettled n) :=
  (((calm_modSlot s n _).trans (calm_enterCloseStates _ n)).trans (calm_settleSlot 33 n _)).trans (calm_rescan _ _)

theorem QueueHolds.closeSettled {s : State} (h : QueueHolds s) (n : SlotId) : QueueHolds (s.closeSettled n) :=
  (((h.of_same (t := s.gatheringStopped n) rfl (fun _ => rfl)).enterCloseStates n).settleSlot 33 n).rescan _

/-- Sag notices follow the close of a FEED_SAG incident alone (R93). -/
theorem State.afterClose_eq : (s.gatheringStopped n).afterClose n ((s.gatheringStopped n).enterCloseStates n) =
    if (s.attribute (s.slot n)).cls = .feedSag then
      (s.closeSettled n).inFreeOrder (s.saggedFeeds (s.slot n)) State.sagNotice
    else s.closeSettled n := by
  rw [State.afterClose, s.attribute_gatheringStopped, s.saggedFeeds_gatheringStopped]
  rfl

end

/-- Whatever the class, the control words, the memory and the nodes stand. -/
theorem sameOutside_afterClose (s : State) (n : SlotId) :
    SameOutside s ((s.gatheringStopped n).afterClose n ((s.gatheringStopped n).enterCloseStates n)) := by
  have h := (calm_closeSettled s n).sameOutside
  rw [s.afterClose_eq]
  split
  · exact State.inFreeOrder_keeps (P := SameOutside s) _ _ (fun _ ht => ht)
      (fun k _ _ ht => sameOutside_sagNotice k ht) _ h
  · exact h

/-- What holds of slot n's state when its members have entered theirs, and of CLOSING and FREE, holds in the end. -/
theorem slotIn_afterClose {A : SlotState → Prop} (hclosing : A .closing) (hfree : A .free) {s : State} {n : SlotId}
    (h : SlotIn A n (settleSlot 33 n ((s.gatheringStopped n).enterCloseStates n))) :
    SlotIn A n ((s.gatheringStopped n).afterClose n ((s.gatheringStopped n).enterCloseStates n)) := by
  have hv : SlotIn A n (s.closeSettled n) := h.rescan hclosing hfree _
  rw [s.afterClose_eq]
  split
  · exact State.inFreeOrder_keeps (P := SlotIn A n) _ _ (fun _ ht => ht.of_slots rfl)
      (fun k _ _ ht => ht.sagNotice hclosing hfree k) _ hv
  · exact hv

/-- The slot is no longer GATHERING (R38). -/
theorem not_gathering_afterClose (s : State) (n : SlotId) :
    SlotIn (· ≠ .gathering) n
      ((s.gatheringStopped n).afterClose n ((s.gatheringStopped n).enterCloseStates n)) := by
  refine slotIn_afterClose (by decide) (by decide) (SlotIn.settleSlot (by decide) (by decide) ?_ 33 n)
  obtain ⟨lockouts, h⟩ := s.slot_close n
  rw [SlotIn, h]
  simp

/-- With every member settled the slot is CLOSING, or its record is already accepted and it is FREE (R49, R50). -/
theorem closing_or_free_afterClose {s : State} {n : SlotId}
    (h : ((s.gatheringStopped n).enterCloseStates n).allSettled n = true) :
    SlotIn (fun st => st = .closing ∨ st = .free) n
      ((s.gatheringStopped n).afterClose n ((s.gatheringStopped n).enterCloseStates n)) := by
  obtain ⟨lockouts, hslot⟩ := s.slot_close n
  refine slotIn_afterClose (.inl rfl) (.inr rfl) ?_
  rw [settleSlot_of_settled 32 n _ (by rw [hslot]) h]
  exact slotIn_closeSlot (.inl rfl) (.inr rfl) n (.inl rfl)

end Sys2Proof.Machine
end

section
/-! SUPPORT. The close of an incident of one member, and the gathering timer's expiry as a whole. -/

namespace Sys2Proof.Machine

open Sys2Proof

/-! ### An incident of one member -/

/-- The one member m of slot n is TRIPPED with a fault cause, neither withdrawn nor reversing, with the intent ON, a
count below the limit, and a context that passes its check and names the slot. -/
structure LoneFault (s : State) (n : SlotId) (m : Member) : Prop where
  members : (s.slot n).members = [m]
  kept : m.withdrawn = false
  cause : m.cause ≠ .undervoltage
  state : (s.dist m.district).state = .tripped
  reversing : (s.dist m.district).reversing = false
  intent : (s.dist m.district).intent = .on
  attempts : (s.dist m.district).attempts ≠ s.control.limit
  passes : s.passes m.district
  slot : (s.dist m.district).incidentSlot = some n

section
variable {s : State} {n : SlotId} {m : Member} (h : LoneFault s n m)
include h

theorem LoneFault.gatheringStopped : LoneFault (s.gatheringStopped n) n m :=
  { h with members := by rw [s.slot_gatheringStopped]; exact h.members }

theorem LoneFault.faultSet : (s.slot n).faultSet = [m] := by
  simp [Slot.faultSet_eq, h.members, h.kept, h.cause]

theorem LoneFault.attribute_eq :
    s.attribute (s.slot n) = { cls := .short, suspects := [m.district], flips := [] } :=
  s.attribute_of_short h.faultSet h.reversing

theorem LoneFault.origin : (s.slot n).originOf = some m.district := by
  apply Slot.originOf_of_first <;> simp [h.faultSet]

theorem LoneFault.closingMembers : s.closingMembers n = [{ m with role := .suspect }] := by
  rw [State.closingMembers, Slot.members_of_suspect _ h.attribute_eq, h.members]
  simp [h.kept]

theorem LoneFault.suspects :
    ((s.slot n).attributed (s.attribute (s.slot n))).suspects = [m.district] := by
  obtain ⟨order, hsuspects, hperm, -⟩ := (s.slot n).suspects_attributed (s.attribute (s.slot n))
  have hmembers : ((s.slot n).attributed (s.attribute (s.slot n))).members = _ := h.closingMembers
  rw [hmembers, List.filter_cons_of_pos rfl, List.filter_nil, List.perm_singleton] at hperm
  rw [hsuspects, hperm]
  rfl

/-- The close puts the suspect into HOLDOFF, and changes nothing else but the slot. -/
theorem LoneFault.enterCloseStates : s.enterCloseStates n =
    ((((s.modSlot n (fun _ => (s.slot n).attributed (s.attribute (s.slot n)))).modDist m.district
      (fun y => { y with role := .suspect })).enter m.district .holdoff).modSlot n
        (fun y => { y with state := .recovering })) := by
  have hgiven : s.fixRoles n = (s.modSlot n (fun _ => (s.slot n).attributed (s.attribute (s.slot n)))).modDist
      m.district (fun y => { y with role := .suspect }) := by
    rw [s.fixRoles_eq, h.closingMembers, List.foldl_cons, List.foldl_nil, State.giveRole]
    simp [h.kept]
  have hdist : (s.fixRoles n).dist m.district = { s.dist m.district with role := .suspect } := by
    rw [hgiven, State.dist_modDist_same, State.modSlot_dist]
  have hpasses : (s.fixRoles n).passes m.district := by
    rw [State.passes, State.checkFails, hdist]
    exact h.passes
  have hlimit : ((s.fixRoles n).dist m.district).attempts ≠ (s.fixRoles n).control.limit := by
    rw [hdist, (calm_fixRoles s n).control]
    exact h.attempts
  have hintent : ((s.fixRoles n).dist m.district).intent ≠ .onManual := by
    rw [hdist]
    have hon : District.intent { s.dist m.district with role := .suspect } = .on := h.intent
    rw [hon]
    decide
  rw [s.enterCloseStates_eq, h.closingMembers, List.foldl_cons, List.foldl_nil,
    State.enterMember_of_passes (m := { m with role := .suspect }) (by rw [hdist]; exact h.state) hpasses h.kept,
    State.enterCloseState_of_holdoff hintent hlimit (by rw [hdist]; simp), hgiven]

/-- The slot of a lone fault after its close (R41, R44). -/
theorem LoneFault.slot_closed :
    (((s.gatheringStopped n).enterCloseStates n).slot n).state = .recovering
      ∧ (((s.gatheringStopped n).enterCloseStates n).slot n).cls = some .short
      ∧ (((s.gatheringStopped n).enterCloseStates n).slot n).origin = some m.district
      ∧ (((s.gatheringStopped n).enterCloseStates n).slot n).suspects = [m.district]
      ∧ (((s.gatheringStopped n).enterCloseStates n).slot n).members = [{ m with role := .suspect }] := by
  obtain ⟨hrecovering, hcls, horigin, hsuspects, hmembers⟩ := s.slot_close_fields n
  rw [hcls, horigin, hsuspects, hmembers, h.suspects, h.origin, h.attribute_eq]
  exact ⟨hrecovering, rfl, rfl, rfl, by rw [← h.attribute_eq]; exact h.closingMembers⟩

/-- The contexts, the queue and the engines of a lone fault after its close (R43). -/
theorem LoneFault.contexts_closed :
    ((s.gatheringStopped n).enterCloseStates n).dist m.district =
        ({ s.dist m.district with role := .suspect } : District).enter s.control .holdoff
      ∧ ((s.gatheringStopped n).enterCloseStates n).queue = s.queue
      ∧ ((s.gatheringStopped n).enterCloseStates n).engines = s.engines
      ∧ ∀ e : DistrictId, e ≠ m.district → ((s.gatheringStopped n).enterCloseStates n).dist e = s.dist e := by
  rw [h.gatheringStopped.enterCloseStates]
  refine ⟨?_, rfl, rfl, fun e he => ?_⟩
  · rw [State.modSlot_dist, State.dist_enter_same, State.dist_modDist_same]
    rfl
  · exact (State.dist_enter_other _ _ e _ he).trans (State.dist_modDist_other _ _ _ e he)

/-- The suspect is in HOLDOFF, so the slot waits, and nothing follows the close. -/
theorem LoneFault.closeSettled : s.closeSettled n = (s.gatheringStopped n).enterCloseStates n := by
  obtain ⟨-, -, -, hsuspects, hmembers⟩ := h.slot_closed
  obtain ⟨hdist, hqueue, hengines, -⟩ := h.contexts_closed
  have hstate : (((s.gatheringStopped n).enterCloseStates n).dist m.district).state = .holdoff := by
    rw [hdist, District.enter_state]
  have hunsettled : ((s.gatheringStopped n).enterCloseStates n).allSettled n = false :=
    State.allSettled_eq_false (m := { m with role := .suspect }) (by rw [hmembers]; exact List.mem_singleton_self _)
      (by rw [hstate]; rfl)
  have hnone : ((s.gatheringStopped n).enterCloseStates n).firstGated n = .none := by
    simp [State.firstGated, hsuspects, hstate]
  rw [State.closeSettled, settleSlot_of_none 32 n _ hunsettled hnone]
  exact State.rescan_of_same _ _ hqueue hengines

/-- A SHORT close gives no sag notice (R93). -/
theorem LoneFault.afterClose :
    (s.gatheringStopped n).afterClose n ((s.gatheringStopped n).enterCloseStates n) =
      (s.gatheringStopped n).enterCloseStates n := by
  rw [s.afterClose_eq, h.attribute_eq, if_neg (by simp), h.closeSettled]

end

/-! ### The sag notices after a close -/

/-- What the sag notices of a FEED_SAG close do to feed k, and to a district that ramps on it. -/
theorem sagNotices_after_close {s : State} {n : SlotId} (k : FeedId) :
    FeedStands k s (s.closeSettled n)
      ∧ (¬Sagged s (s.slot n).members k ∨ (s.feed k).state = .down →
        FeedStands k s ((s.closeSettled n).inFreeOrder (s.saggedFeeds (s.slot n)) State.sagNotice))
      ∧ (Sagged s (s.slot n).members k → (s.feed k).state ≠ .down →
        ((((s.closeSettled n).inFreeOrder (s.saggedFeeds (s.slot n)) State.sagNotice).feed k).state = .settling
          ∧ (((s.closeSettled n).inFreeOrder (s.saggedFeeds (s.slot n)) State.sagNotice).feed k).settleTimer =
            some (s.feed k).settleMicros
          ∧ (((s.closeSettled n).inFreeOrder (s.saggedFeeds (s.slot n)) State.sagNotice).feed k).settleRestarted =
            decide ((s.feed k).state = .settling)))
      ∧ (Sagged s (s.slot n).members k → (s.feed k).state = .up → ∀ d e, RampsOn d e k (s.closeSettled n) →
        Requeued d (s.closeSettled n)
          ((s.closeSettled n).inFreeOrder (s.saggedFeeds (s.slot n)) State.sagNotice)) := by
  have hstands := (calm_closeSettled s n).feedStands k
  have hmem := s.mem_saggedFeeds (s.slot n) k
  have hnodup := s.saggedFeeds_nodup (s.slot n)
  refine ⟨hstands, fun h => hstands.trans (feedStands_sagNotices _ ?_), fun hs hd => ?_, fun hs hup d e hr => ?_⟩
  · rw [hmem, hstands.state]
    exact h
  · have hsettled := (s.closeSettled n).feed_sagNotices (hmem.mpr hs) hnodup (by rw [hstands.state]; exact hd)
    rw [Feed.settleMicros, hstands.settleTime, hstands.state] at hsettled
    exact hsettled
  · exact hr.sagNotices (hstands.state.trans hup) (hmem.mpr hs) hnodup

/-- A district that ramps after the close is out of the queue, where queue and states agreed before it (R64). -/
theorem QueueHolds.not_mem_closeSettled {s : State} (h : QueueHolds s) (n : SlotId) {d : DistrictId}
    (hd : ((s.closeSettled n).dist d).state = .ramping) : d ∉ (s.closeSettled n).queue :=
  (h.closeSettled n).not_mem (by rw [hd]; decide)

/-- Settles O45: the expiry with its round not seen, the incident of one member, and then the close in general, by
the slot's attribution, each member's entry, and what follows the close. -/
theorem gatheringTimerClosesSlotAfterRound : Obligations.GatheringTimerClosesSlotAfterRound := by
  intro s n hr hg ht
  refine ⟨fun hseen => ?_, fun hseen => ?_, fun hseen l active faults hl hactive hfaults => ?_⟩
  · rw [exec_gatheringTimerExpiry hr hg ht, hseen]
    rfl
  · obtain ⟨hcontrol, hmem, hnodes⟩ := sameOutside_afterClose s n
    refine ⟨_, exec_gatheringTimerExpiry_of_seen hr hg ht hseen, not_gathering_afterClose s n, hcontrol, hmem,
      hnodes, ?_⟩
    rintro _ m hm rfl hkept hcause hstate hrev hi ha hp hs
    have h : LoneFault s n m := ⟨hm, hkept, hcause, hstate, hrev, hi, ha, hp, hs⟩
    obtain ⟨hrecovering, hcls, horigin, hsuspects, hmembers⟩ := h.slot_closed
    obtain ⟨hdist, hqueue, -, hothers⟩ := h.contexts_closed
    rw [h.afterClose, hdist]
    exact ⟨hrecovering, hcls, horigin, hsuspects, hmembers, rfl, District.role_enter_of_member _ _ hs, rfl, rfl, rfl,
      hqueue, hothers⟩
  · subst hl
    have hactive : active = (s.slot n).active := hactive
    have hfaults : faults = (s.slot n).faultSet := hfaults.trans (s.slot n).faultSet_eq.symm
    subst hactive hfaults
    obtain ⟨hrecovering, hcls, horigin, hsuspects, hmembers⟩ := s.slot_close_fields n
    refine ⟨(s.gatheringStopped n).enterCloseStates n, exec_gatheringTimerExpiry_of_seen hr hg ht hseen, ?_⟩
    rw [hcls, horigin, hsuspects]
    refine ⟨hrecovering, fun ha => ?_, fun m hm hfirst => Slot.originOf_of_first hm hfirst, ?_, fun m hf hrev => ?_,
      fun m hf hrev => ?_, fun m p f hf hb hm hrev hother => ?_, fun m p hf hb hrev => ?_, fun hf hb => ?_,
      fun hjoint => ?_, fun hf ha hs => ?_, fun hf ha hs => ?_, ?_, ?_, fun hsettled => ?_⟩
    · rw [hmembers, s.attribute_of_inactive ha]
      exact ⟨rfl, Slot.members_of_inactive ha _, Slot.originOf_of_inactive ha⟩
    · rw [hmembers]
      exact (s.slot n).suspects_attributed _
    · have ha := s.attribute_of_reversing hf hrev
      rw [hmembers, Slot.members_of_flip _ ha, ha]
      exact ⟨rfl, rfl⟩
    · have ha := s.attribute_of_short hf hrev
      rw [hmembers, Slot.members_of_suspect _ ha, ha]
      exact ⟨rfl, rfl⟩
    · have ha := s.attribute_of_bridged_reversing hf hb hm hrev hother
      rw [hmembers, Slot.members_of_flip _ ha, ha]
      exact ⟨rfl, rfl⟩
    · rw [s.attribute_of_bridged hf hb hrev]
    · rw [s.attribute_of_several hf hb]
    · rw [hmembers, Slot.members_of_suspects _ (s.attribute_joint (hjoint.imp Option.some.inj Option.some.inj))]
    · have ha := s.attribute_of_sagged ha hf hs
      have hflips : (s.attribute (s.slot n)).flips = [] := by rw [ha]
      rw [hmembers]
      refine ⟨by rw [ha], (s.slot n).districts_attributed _, fun m hm hw => ?_⟩
      have hroles := Slot.mem_attributed hflips hm hw
      rw [ha, s.mem_blamed_iff] at hroles
      rw [ha]
      exact hroles
    · have ha := s.attribute_of_quiet ha hf hs
      rw [hmembers, Slot.members_of_none _ ha, ha]
      exact ⟨rfl, rfl⟩
    · rintro m hm _ rfl hone hslot
      rw [State.members_enterCloseStates] at hm
      rw [← s.entries_gatheringStopped n] at hone
      simp only [State.passes, ← s.dist_gatheringStopped n, ← s.checkFails_gatheringStopped n,
        ← s.feed_gatheringStopped n, ← s.control_gatheringStopped n, ← s.hold_gatheringStopped n] at hslot ⊢
      refine ⟨fun hstay => State.dist_close_of_stays hm hone hstay,
        fun htrip hp => State.close_of_fails hm hone htrip hp,
        fun htrip hp hw => State.close_of_withdrawn hm hone htrip hp hw, fun htrip hp hw => ?_⟩
      obtain ⟨hrole, hattempts⟩ := State.close_keeps_role_and_count hm hone htrip hp hw hslot
      refine ⟨hrole, hattempts, State.close_of_manual hm hone htrip hp hw,
        fun hi hl => State.close_of_limit hm hone htrip hp hw hslot hi hl, fun hi hl => ⟨fun hr => ?_, fun hr => ?_⟩⟩
      · exact State.close_of_flip hm hone htrip hp hw hi hl hslot hr
      · exact State.close_of_holdoff hm hone htrip hp hw hi hl hr
    · rintro _ v rfl hv
      have hv : v = s.closeSettled n := hv
      subst hv
      refine ⟨_, exec_gatheringTimerExpiry_of_seen hr hg ht hseen, fun hne => ?_, fun hsag k => ?_⟩
      · rw [s.afterClose_eq, if_neg (fun he => hne (by rw [he]))]
      · rw [s.afterClose_eq, if_pos (Option.some.inj hsag)]
        obtain ⟨hv, hstill, hsettles, hreturns⟩ := sagNotices_after_close (s := s) (n := n) k
        refine ⟨hv.state, hv.settleTimer, fun h => ⟨(hstill h).state, (hstill h).settleTimer⟩, hsettles,
          fun hrestart hs hup d e hp hd he hf hramp halone => ?_⟩
        obtain ⟨hagrees, -⟩ := hrestart
        have ht := hreturns hs hup d e
          ⟨hramp, he, hf, halone, hd, hp, hagrees.holds.not_mem_closeSettled n hramp⟩
        exact ⟨ht.state, ht.queue, ht.level, ht.mark, ht.attempts, ht.engine e⟩
    · refine ⟨_, exec_gatheringTimerExpiry_of_seen hr hg ht hseen, closing_or_free_afterClose ?_⟩
      rw [State.allSettled, List.all_eq_true]
      exact hsettled

end Sys2Proof.Machine
end

section
/-! SUPPORT. Writes of adjacency words: the check of R54 in the spec's own terms, and the word it stores. -/

namespace Sys2Proof.Machine

open Sys2Proof

/-! ### The check (R54) -/

theorem adjacentValid_iff (w : Word) : adjacentValid w = true ↔ w.getLsbD 15 = true := Iff.rfl

/-- The pair is unordered: either district field may hold either number. -/
theorem namesPair_iff (w : Word) (x y : Nat) :
    namesPair w x y = true ↔ field w 0 6 = x ∧ field w 8 6 = y ∨ field w 0 6 = y ∧ field w 8 6 = x := by
  simp only [namesPair, adjacentA, adjacentB, Bool.or_eq_true, Bool.and_eq_true, beq_iff_eq]

theorem State.duplicates_iff (s : State) (j : Fin 48) (w : Word) :
    s.duplicates j w = true ↔ ∃ i : Fin 48, i ≠ j ∧ s.adjacency[i].getLsbD 15 = true
      ∧ (field s.adjacency[i] 0 6 = field w 0 6 ∧ field s.adjacency[i] 8 6 = field w 8 6
        ∨ field s.adjacency[i] 0 6 = field w 8 6 ∧ field s.adjacency[i] 8 6 = field w 0 6) := by
  simp only [State.duplicates, indices, List.any_eq_true, List.mem_finRange, true_and, Bool.and_eq_true,
    bne_iff_ne, adjacentValid_iff, namesPair_iff, adjacentA, adjacentB, and_assoc]

theorem getLsbD_validMask : ∀ i : Fin 16, (0x7FFF : Word).getLsbD i.val = decide (i.val ≠ 15) := by decide

/-- A word that does not ask for valid has no flag to clear. -/
theorem clearValid_of_invalid {w : Word} (h : w.getLsbD 15 = false) : w &&& 0x7FFF = w := by
  apply BitVec.eq_of_getLsbD_eq
  intro i hi
  rw [BitVec.getLsbD_and, getLsbD_validMask ⟨i, hi⟩]
  by_cases h15 : i = 15
  · subst h15
    rw [h, Bool.false_and]
  · simp [h15]

theorem State.filterAdjacency_of_invalid (s : State) (j : Fin 48) {w : Word} (h : w.getLsbD 15 = false) :
    s.filterAdjacency j w = w := by
  rw [State.filterAdjacency, clearValid_of_invalid h, ite_self]

/-- The model tests every word, the spec only one that asks for valid: for the others both keep the word. -/
theorem State.filterAdjacency_eq (s : State) (j : Fin 48) (w : Word) :
    s.filterAdjacency j w =
      if w.getLsbD 15 = true ∧ (field w 0 6 = field w 8 6 ∨ 31 < field w 0 6 ∨ 31 < field w 8 6
          ∨ ∃ i : Fin 48, i ≠ j ∧ s.adjacency[i].getLsbD 15 = true
            ∧ (field s.adjacency[i] 0 6 = field w 0 6 ∧ field s.adjacency[i] 8 6 = field w 8 6
              ∨ field s.adjacency[i] 0 6 = field w 8 6 ∧ field s.adjacency[i] 8 6 = field w 0 6))
      then w &&& 0x7FFF else w := by
  cases hv : w.getLsbD 15 with
  | true => simp only [State.filterAdjacency, s.duplicates_iff, adjacentA, adjacentB, true_and]
  | false => simp only [s.filterAdjacency_of_invalid j hv, Bool.false_eq_true, false_and, if_false]

/-! ### The write (R126, R132) -/

theorem exec_adjacencyWrite_of_faceFree {s : State} (hf : s.faceFree) (j : Fin 48) (v : Word) (l : Lanes) :
    exec (.adjacencyWrite j v l) s =
      .next (s.storeIntent (.adjacency j) (s.filterAdjacency j (mergeLanes l v s.adjacency[j]))) := by
  have h : exec (.adjacencyWrite j v l) s =
      .next (s.running (State.hostWrite (.adjacency j) v l (State.writeAdjacency j v l))) := rfl
  rw [h, s.running_hostWrite _ v l _ hf, State.writeAdjacency]

/-- Settles O21: the face is free, so the write is taken at once, and the word stored is the filtered one. -/
theorem adjacencyWriteChecksEntry : Obligations.AdjacencyWriteChecksEntry := by
  unfold Obligations.AdjacencyWriteChecksEntry
  rintro s j v l m stored hf rfl hstored
  rw [exec_adjacencyWrite_of_faceFree hf, s.filterAdjacency_eq, ← hstored]
  rfl

end Sys2Proof.Machine
end

section
/-! SUPPORT. The places of districts in the restart queue and on the ramp engines (R64, R74): what becomes of them
when a district leaves its place or takes one, and through the shared operations. -/

namespace Sys2Proof.Machine

open Sys2Proof

/-! ### The place of one district -/

/-- District d stands in the restart queue, and on one engine, exactly when its state says so. -/
structure Placed (s : State) (d : DistrictId) : Prop where
  queued : d ∈ s.queue ↔ (s.dist d).state = .queued
  ramping : (∃ e, (s.engine e).district = some d) ↔ (s.dist d).state = .ramping
  single : ∀ e f, (s.engine e).district = some d → (s.engine f).district = some d → e = f

/-- The invariant, district by district. -/
theorem restartAgrees_iff (s : State) : RestartAgrees s ↔ s.queue.Nodup ∧ ∀ d, Placed s d := by
  constructor
  · rintro ⟨⟨hnodup, hqueue⟩, hbusy, hheld, hone⟩
    exact ⟨hnodup, fun d => ⟨hqueue d, ⟨fun ⟨e, he⟩ => hbusy e d he, hheld d⟩, fun e f => hone e f d⟩⟩
  · rintro ⟨hnodup, hplaced⟩
    exact ⟨⟨hnodup, fun d => (hplaced d).queued⟩, fun e d he => (hplaced d).ramping.mp ⟨e, he⟩,
      fun d => (hplaced d).ramping.mpr, fun e f d => (hplaced d).single e f⟩

theorem RestartAgrees.placed {s : State} (h : RestartAgrees s) (d : DistrictId) : Placed s d :=
  ((restartAgrees_iff s).mp h).2 d

theorem RestartAgrees.nodup {s : State} (h : RestartAgrees s) : s.queue.Nodup := ((restartAgrees_iff s).mp h).1

theorem Placed.congr {s t : State} {d : DistrictId} (h : Placed s d) (hq : d ∈ t.queue ↔ d ∈ s.queue)
    (he : ∀ e, (t.engine e).district = some d ↔ (s.engine e).district = some d)
    (hs : (t.dist d).state = (s.dist d).state) : Placed t d where
  queued := by rw [hq, hs]; exact h.queued
  ramping := by simp only [he, hs]; exact h.ramping
  single e f hde hdf := h.single e f ((he e).mp hde) ((he f).mp hdf)

/-- The same queue, the same districts on the engines, the same states. -/
theorem RestartAgrees.of_same {s t : State} (h : RestartAgrees s) (hq : t.queue = s.queue)
    (he : ∀ e, (t.engine e).district = (s.engine e).district)
    (hs : ∀ c, (t.dist c).state = (s.dist c).state) : RestartAgrees t :=
  (restartAgrees_iff t).mpr ⟨hq ▸ h.nodup, fun c => (h.placed c).congr (by rw [hq]) (fun e => by rw [he]) (hs c)⟩

theorem RestartAgrees.of_eq {s t : State} (h : RestartAgrees s) (hq : t.queue = s.queue)
    (he : t.engines = s.engines) (hd : t.districts = s.districts) : RestartAgrees t :=
  h.of_same hq (fun e => by rw [State.engine, he]; rfl) (fun c => by rw [State.dist, hd]; rfl)

theorem State.state_modDist_of_keeps (s : State) (d c : DistrictId) {f : District → District}
    (hf : (f (s.dist d)).state = (s.dist d).state) : ((s.modDist d f).dist c).state = (s.dist c).state := by
  rw [State.dist_modDist]
  split
  · next hc => rw [hc, hf]
  · rfl

/-- A context changed in anything but its state. -/
theorem RestartAgrees.modDist {s : State} (h : RestartAgrees s) (d : DistrictId) (f : District → District)
    (hf : (f (s.dist d)).state = (s.dist d).state) : RestartAgrees (s.modDist d f) :=
  h.of_same rfl (fun _ => rfl) (fun c => s.state_modDist_of_keeps d c hf)

/-- An engine changed in anything but its district. -/
theorem RestartAgrees.modEngine {s : State} (h : RestartAgrees s) (e : EngineId) (f : Engine → Engine)
    (hf : (f (s.engine e)).district = (s.engine e).district) : RestartAgrees (s.modEngine e f) := by
  refine h.of_same rfl (fun i => ?_) (fun _ => rfl)
  rw [State.engine_modEngine]
  split
  · next hi => rw [hi, hf]
  · rfl

/-! ### A district out of play -/

/-- The states of a district that stands neither in the queue nor on an engine. -/
abbrev DistrictState.Placeless (st : DistrictState) : Prop := st ≠ .queued ∧ st ≠ .ramping

/-- d is out of the queue and off the engines, whatever its state, and every other district is at its place. -/
structure OutOfPlay (d : DistrictId) (s : State) : Prop where
  nodup : s.queue.Nodup
  others : ∀ c, c ≠ d → Placed s c
  unqueued : d ∉ s.queue
  unheld : ∀ e, (s.engine e).district ≠ some d

theorem OutOfPlay.of_same {d : DistrictId} {s t : State} (h : OutOfPlay d s) (hq : t.queue = s.queue)
    (he : ∀ e, (t.engine e).district = (s.engine e).district)
    (hs : ∀ c, c ≠ d → (t.dist c).state = (s.dist c).state) : OutOfPlay d t where
  nodup := hq ▸ h.nodup
  others c hc := (h.others c hc).congr (by rw [hq]) (fun e => by rw [he]) (hs c hc)
  unqueued := hq ▸ h.unqueued
  unheld e := by rw [he]; exact h.unheld e

/-- In a state that has no place, d is in order. -/
theorem OutOfPlay.agrees {d : DistrictId} {s : State} (h : OutOfPlay d s) (hst : (s.dist d).state.Placeless) :
    RestartAgrees s := by
  obtain ⟨hqueued, hramping⟩ := hst
  refine (restartAgrees_iff s).mpr ⟨h.nodup, fun c => ?_⟩
  by_cases hc : c = d
  · subst hc
    exact ⟨iff_of_false h.unqueued hqueued, iff_of_false (fun ⟨e, he⟩ => h.unheld e he) hramping,
      fun e _ he => absurd he (h.unheld e)⟩
  · exact h.others c hc

theorem RestartAgrees.outOfPlay {s : State} (h : RestartAgrees s) {d : DistrictId}
    (hst : (s.dist d).state.Placeless) : OutOfPlay d s where
  nodup := h.nodup
  others c _ := h.placed c
  unqueued hm := hst.1 ((h.placed d).queued.mp hm)
  unheld e he := hst.2 ((h.placed d).ramping.mp ⟨e, he⟩)

/-- d out of the queue and off its engine is out of play. -/
theorem RestartAgrees.leave {s t : State} (h : RestartAgrees s) {d : DistrictId} (hq : t.queue = s.queue.erase d)
    (he : ∀ e, (t.engine e).district = if (s.engine e).district = some d then .none else (s.engine e).district)
    (hs : ∀ c, c ≠ d → (t.dist c).state = (s.dist c).state) : OutOfPlay d t where
  nodup := hq ▸ h.nodup.erase d
  others c hc := by
    refine (h.placed c).congr (by rw [hq, List.mem_erase_of_ne hc]) (fun e => ?_) (hs c hc)
    rw [he]
    split
    · next hd => simp [hd, hc.symm]
    · rfl
  unqueued hm := (h.nodup.mem_erase_iff.mp (hq ▸ hm)).1 rfl
  unheld e hd := by
    rw [he] at hd
    split at hd
    · cases hd
    · next hne => exact hne hd

/-- The engine that holds d freed, d being in no queue. -/
theorem RestartAgrees.leaveEngine {s t : State} (h : RestartAgrees s) {d : DistrictId} {i : EngineId}
    (hi : (s.engine i).district = some d) (hq : t.queue = s.queue) (hti : (t.engine i).district = .none)
    (hte : ∀ e, e ≠ i → (t.engine e).district = (s.engine e).district)
    (hs : ∀ c, c ≠ d → (t.dist c).state = (s.dist c).state) : OutOfPlay d t := by
  have hramping := (h.placed d).ramping.mp ⟨i, hi⟩
  have hout : d ∉ s.queue := fun hm => by
    rw [(h.placed d).queued.mp hm] at hramping
    cases hramping
  refine h.leave (by rw [hq, List.erase_of_not_mem hout]) (fun e => ?_) hs
  by_cases hei : e = i
  · rw [hei, hti, if_pos hi]
  · rw [hte e hei, if_neg (fun hd => hei ((h.placed d).single e i hd hi))]

section
variable {d : DistrictId} {s : State}

theorem OutOfPlay.modDist (h : OutOfPlay d s) (f : District → District) : OutOfPlay d (s.modDist d f) :=
  h.of_same rfl (fun _ => rfl) (fun c hc => by rw [s.dist_modDist_other d f c hc])

theorem OutOfPlay.enter (h : OutOfPlay d s) (st : DistrictState) : OutOfPlay d (s.enter d st) := h.modDist _

/-- A state that has no place entered from out of play. -/
theorem OutOfPlay.enterPlaceless (h : OutOfPlay d s) {st : DistrictState} (hst : st.Placeless) :
    RestartAgrees (s.enter d st) :=
  (h.enter st).agrees (by rw [s.dist_enter_same]; exact hst)

/-- d put into the queue and QUEUED. -/
theorem OutOfPlay.insert (h : OutOfPlay d s) {t : State} (hq : t.queue.Perm (d :: s.queue))
    (he : ∀ e, (t.engine e).district = (s.engine e).district) (hst : (t.dist d).state = .queued)
    (hs : ∀ c, c ≠ d → (t.dist c).state = (s.dist c).state) : RestartAgrees t := by
  refine (restartAgrees_iff t).mpr ⟨hq.nodup_iff.mpr (List.nodup_cons.mpr ⟨h.unqueued, h.nodup⟩), fun c => ?_⟩
  by_cases hc : c = d
  · subst hc
    refine ⟨iff_of_true (hq.mem_iff.mpr List.mem_cons_self) hst, iff_of_false ?_ (by rw [hst]; decide), ?_⟩
    · rintro ⟨e, hd⟩
      exact h.unheld e (he e ▸ hd)
    · intro e _ hd _
      exact absurd (he e ▸ hd) (h.unheld e)
  · refine (h.others c hc).congr ?_ (fun e => by rw [he]) (hs c hc)
    rw [hq.mem_iff, List.mem_cons, or_iff_right hc]

theorem OutOfPlay.enterQueued (h : OutOfPlay d s) (b : Bool) : RestartAgrees (s.enterQueued d b) := by
  refine h.insert (insertAfterLast_perm _ d s.queue) (fun _ => rfl) ?_
    (fun c hc => by rw [s.dist_enterQueued_other d c b hc])
  rw [s.dist_enterQueued_same]
  rfl

theorem OutOfPlay.returnToQueue (h : OutOfPlay d s) : RestartAgrees (s.returnToQueue d) := by
  refine h.insert (insertAfterLast_perm _ d s.queue) (fun _ => rfl) ?_
    (fun c hc => congrArg District.state (s.dist_enter_other d c .queued hc))
  exact congrArg District.state (s.dist_enter_same d .queued)

end

/-! ### Freeing engines (R81, R82) -/

theorem State.district_freeEngine (s : State) (i : EngineId) : ((s.freeEngine i).engine i).district = .none := by
  rw [State.freeEngine, State.engine_modEngine_same]

theorem State.engine_freeEngine_other (s : State) {i e : EngineId} (h : e ≠ i) :
    (s.freeEngine i).engine e = s.engine e := by
  rw [State.freeEngine, State.engine_modEngine_other _ _ _ _ h, State.modFeed_engine]

theorem RestartAgrees.freeEngine {s : State} (h : RestartAgrees s) {d : DistrictId} {i : EngineId}
    (hi : (s.engine i).district = some d) : OutOfPlay d (s.freeEngine i) :=
  h.leaveEngine hi rfl (s.district_freeEngine i) (fun _ he => by rw [s.engine_freeEngine_other he]) (fun _ _ => rfl)

/-- No engine is found for a district that none holds. -/
theorem State.engineOf_eq_none_iff (s : State) (d : DistrictId) :
    s.engineOf d = .none ↔ ∀ e, (s.engine e).district ≠ some d := by
  simp [State.engineOf, List.find?_eq_none]

/-- A district outside the queue is out of play once its engine, if it has one, is freed. -/
theorem RestartAgrees.freeEngineOf {s : State} (h : RestartAgrees s) {d : DistrictId}
    (hd : (s.dist d).state ≠ .queued) : OutOfPlay d (s.freeEngineOf d) := by
  unfold State.freeEngineOf
  split
  · next i hi => exact h.freeEngine (State.district_of_engineOf hi)
  · next hnone =>
    have hfree := (s.engineOf_eq_none_iff d).mp hnone
    exact ⟨h.nodup, fun c _ => h.placed c, fun hm => hd ((h.placed d).queued.mp hm), hfree⟩

/-- A departure takes d out of play from any state (R13, R82). -/
theorem RestartAgrees.depart {s : State} (h : RestartAgrees s) (d : DistrictId) : OutOfPlay d (s.depart d) := by
  refine h.leave (s.queue_depart d) (fun e => ?_) (fun c _ => by rw [s.dist_depart])
  have hengine : (s.depart d).engine e = (s.freeEngineOf d).engine e := rfl
  rw [hengine]
  unfold State.freeEngineOf
  split
  · next i hi =>
    have hd := State.district_of_engineOf hi
    by_cases he : e = i
    · rw [he, s.district_freeEngine i, if_pos hd]
    · rw [s.engine_freeEngine_other he, if_neg (fun hed => he ((h.placed d).single e i hed hd))]
  · next hnone => rw [if_neg ((s.engineOf_eq_none_iff d).mp hnone e)]

/-! ### Check errors, closings, releases (R22, R47, R49) -/

theorem RestartAgrees.checkError {s : State} (h : RestartAgrees s) (d : DistrictId) :
    RestartAgrees (s.checkError d) := by
  have hmoved : RestartAgrees (if (s.dist d).state = .locked then s else (s.depart d).enter d .checkHold) := by
    split
    · exact h
    · exact (h.depart d).enterPlaceless (by decide)
  exact (hmoved.modDist d (fun x => ({ x with invalid := true, reload := 0 } : District).latchCheckError) rfl).of_eq
    rfl rfl rfl

theorem RestartAgrees.closeSlot {s : State} (h : RestartAgrees s) (n : SlotId) : RestartAgrees (s.closeSlot n) := by
  obtain ⟨contexts, ring, slots, hclose, -⟩ := s.closeSlot_eq n
  exact h.of_same (by rw [hclose]) (fun e => by rw [hclose]; rfl) (fun c => (apart_closeSlot c s n).state)

theorem RestartAgrees.releaseSuspect {s : State} (h : RestartAgrees s) {d : DistrictId}
    (hd : (s.dist d).state = .gated) : RestartAgrees (s.releaseSuspect d) := by
  unfold State.releaseSuspect
  split
  · exact h.checkError d
  · exact (h.outOfPlay (by rw [hd]; decide)).enterQueued true

theorem RestartAgrees.settleSlot {s : State} (h : RestartAgrees s) (fuel : Nat) (n : SlotId) :
    RestartAgrees (settleSlot fuel n s) :=
  settleSlot_keeps (fun _ n ht => ht.closeSlot n) (fun _ _ ht hd => ht.releaseSuspect hd) fuel n s h

theorem RestartAgrees.notify {s : State} (h : RestartAgrees s) (before : State) (d : DistrictId) :
    RestartAgrees (before.notify d s) :=
  State.notify_keeps (fun _ n ht => ht.closeSlot n) (fun _ _ ht hd => ht.releaseSuspect hd) before d s h

/-! ### Grants and scans (R70 to R76) -/

/-- The engine granted holds its district; the others stand. -/
theorem State.district_beginRamp (s : State) (i e : EngineId) (d : DistrictId) :
    ((s.beginRamp i d).engine e).district = if e = i then some d else (s.engine e).district := by
  have htake (e : EngineId) : ((s.takeEngine i d).engine e).district =
      if e = i then some d else (s.engine e).district := by
    have h : (s.takeEngine i d).engine e = (State.modEngine { s with queue := s.queue.erase d } i (fun _ =>
      { district := some d, feed := (s.dist d).feed, steps := (s.dist d).steps, interval := (s.dist d).interval,
        ceiling := (s.dist d).ceiling, index := 1, stalls := 0, timer := .none, reading := .none })).engine e := rfl
    rw [h, State.engine_modEngine]
    split <;> rfl
  unfold State.beginRamp
  split
  · exact htake e
  · rw [State.commandStep, State.modDist_engine, State.engine_modEngine]
    split
    · next he => subst he; simp [htake]
    · next he => rw [htake, if_neg he]

/-- A queued district granted an IDLE engine is RAMPING on it, and on no other. -/
theorem RestartAgrees.beginRamp {s : State} (h : RestartAgrees s) {i : EngineId} {d : DistrictId}
    (hi : (s.engine i).district = .none) (hd : d ∈ s.queue) : RestartAgrees (s.beginRamp i d) := by
  have hunheld (e : EngineId) : (s.engine e).district ≠ some d := fun he => by
    have hramping := (h.placed d).ramping.mp ⟨e, he⟩
    rw [(h.placed d).queued.mp hd] at hramping
    cases hramping
  refine (restartAgrees_iff _).mpr ⟨by rw [s.queue_beginRamp]; exact h.nodup.erase d, fun c => ?_⟩
  by_cases hc : c = d
  · subst hc
    have hon (e : EngineId) : ((s.beginRamp i c).engine e).district = some c ↔ e = i := by
      rw [s.district_beginRamp]
      split
      · next he => simp [he]
      · next he => simp [he, hunheld e]
    refine ⟨iff_of_false ?_ (by rw [s.state_beginRamp]; decide),
      iff_of_true ⟨i, (hon i).mpr rfl⟩ (s.state_beginRamp i c),
      fun e f he hf => ((hon e).mp he).trans ((hon f).mp hf).symm⟩
    rw [s.queue_beginRamp, h.nodup.mem_erase_iff]
    simp
  · have ha := aside_beginRamp (d := c) (e := d) (Ne.symm hc) s i (by rw [hi]; simp)
    refine (h.placed c).congr ha.queue (fun e => ?_) (by rw [ha.dist])
    rw [s.district_beginRamp]
    split
    · next he => simp [he, hi, Ne.symm hc]
    · rfl

/-- The end of d's ramp on the engine that holds it (R76, R78). -/
theorem RestartAgrees.completeRamp {s : State} (h : RestartAgrees s) {i : EngineId} {d : DistrictId}
    (hi : (s.engine i).district = some d) : RestartAgrees (s.completeRamp i d) := by
  have hcontext : (s.completeRamp i d).dist d = (((s.enter d .proving).countAttempt d).dist d) := rfl
  refine (h.leaveEngine (t := s.completeRamp i d) hi rfl (State.district_freeEngine _ i)
    (fun e he => by rw [State.completeRamp, State.engine_freeEngine_other _ he]; rfl) (fun c hc => ?_)).agrees ?_
  · exact congrArg District.state ((State.dist_modDist_other _ d _ c hc).trans (s.dist_enter_other d c _ hc))
  · rw [hcontext, State.countAttempt, State.state_modDist_of_keeps, State.dist_enter_same, District.enter_state]
    · decide
    · split <;> rfl

theorem RestartAgrees.grant {s : State} (h : RestartAgrees s) {i : EngineId} {d : DistrictId}
    (hi : (s.engine i).district = .none) (hd : d ∈ s.queue) : RestartAgrees (s.grant i d) := by
  unfold State.grant
  dsimp only
  split
  · exact (h.checkError d).notify s d
  · have hbegun := (h.beginRamp hi hd).notify s d
    split
    · -- the notice leaves d, which is not GATED, on its engine
      have hapart : Apart d (s.beginRamp i d) (s.notify d (s.beginRamp i d)) :=
        apart_notify s d (by rw [s.state_beginRamp]; decide)
      have hon : ((s.beginRamp i d).engine i).district = some d := by rw [s.district_beginRamp, if_pos rfl]
      refine (hbegun.completeRamp (i := i) ?_).notify _ d
      rw [hapart.engine i (.inl hon), hon]
    · exact hbegun

theorem RestartAgrees.scan {s : State} (h : RestartAgrees s) : RestartAgrees s.scan :=
  State.scan_keeps (fun _ _ _ ht hi hd _ => ht.grant hi hd) s h

theorem RestartAgrees.rescan {s : State} (h : RestartAgrees s) (before : State) :
    RestartAgrees (before.rescan s) := by
  unfold State.rescan
  split
  · exact h.scan
  · exact h

/-! ### Claims -/

theorem RestartAgrees.finish {s : State} (h : RestartAgrees s) (before : State) (d : DistrictId) :
    RestartAgrees (before.finish d s) :=
  (h.notify before d).rescan before

theorem RestartAgrees.raiseCheck {s : State} (h : RestartAgrees s) (d : DistrictId) :
    RestartAgrees (s.raiseCheck d) :=
  (h.checkError d).finish s d

theorem RestartAgrees.claim {s : State} (h : RestartAgrees s) (d : DistrictId) {f : State → State}
    (hf : RestartAgrees (f s)) : RestartAgrees (s.claim d f) := by
  unfold State.claim
  split
  · exact h.raiseCheck d
  · exact hf.finish s d

theorem RestartAgrees.claimUnscanned {s : State} (h : RestartAgrees s) (d : DistrictId) {f : State → State}
    (hf : RestartAgrees (f s)) : RestartAgrees (s.claimUnscanned d f) := by
  unfold State.claimUnscanned
  refine RestartAgrees.notify ?_ s d
  split
  · exact h.checkError d
  · exact hf

theorem RestartAgrees.inFreeOrder {α : Type} {s : State} (h : RestartAgrees s) (l : List α)
    {f : α → State → State} (hf : ∀ a t, RestartAgrees t → RestartAgrees (f a t)) :
    RestartAgrees (s.inFreeOrder l f) :=
  State.inFreeOrder_keeps l f (fun _ ht => ht.of_eq rfl rfl rfl) (fun a _ => hf a) s h

theorem RestartAgrees.running {s : State} (h : RestartAgrees s) {f : State → State} (hf : RestartAgrees (f s)) :
    RestartAgrees (s.running f) := by
  unfold State.running
  split
  · exact h
  · exact hf

theorem RestartAgrees.mark {s : State} (h : RestartAgrees s) (p : IntentPos) : RestartAgrees (s.mark p) := by
  unfold State.mark
  split
  · exact h
  · exact h.of_eq rfl rfl rfl

end Sys2Proof.Machine
end

section
/-! SUPPORT. Every step keeps the restart queue and the ramp engines agreeing with the states (R64, R74): cuts and
closes, the feeds, the link, host writes and commands. -/

namespace Sys2Proof.Machine

open Sys2Proof

/-! ### Close states (R35, R43, R45, R56, R57) -/

section
variable {d : DistrictId} {s : State}

/-- A change that touches neither the queue, nor the engines, nor a context. -/
theorem OutOfPlay.of_eq (h : OutOfPlay d s) {t : State} (hq : t.queue = s.queue) (he : t.engines = s.engines)
    (hd : t.districts = s.districts) : OutOfPlay d t :=
  h.of_same hq (fun e => by rw [State.engine, he]; rfl) (fun c _ => by rw [State.dist, hd]; rfl)

theorem OutOfPlay.enterLockout (h : OutOfPlay d s) : RestartAgrees (s.enterLockout d) := by
  unfold State.enterLockout
  refine RestartAgrees.mark (RestartAgrees.modDist (RestartAgrees.modDist
    (OutOfPlay.enterPlaceless ?_ (by decide)) d District.latchLockout rfl) d _ rfl) _
  split
  · exact h.of_eq rfl rfl rfl
  · exact h

theorem OutOfPlay.flip (h : OutOfPlay d s) : RestartAgrees (s.flip d) := by
  have hreversing : OutOfPlay d (s.enterReversing d) := (h.modDist _).enter .reversing
  unfold State.flip
  split
  · exact hreversing.returnToQueue
  · refine hreversing.agrees ?_
    rw [State.enterReversing, State.dist_enter_same, District.enter_state]
    decide

/-- A close state entered from out of play, the queue by a barred flip included. -/
theorem OutOfPlay.enterCloseState (h : OutOfPlay d s) : RestartAgrees (s.enterCloseState d) := by
  unfold State.enterCloseState
  split
  · exact h.enterPlaceless (by decide)
  · split
    · exact h.enterLockout
    · split
      · exact h.flip
      all_goals exact h.enterPlaceless (by decide)

/-! ### Cuts (R31 to R36, R45) -/

/-- An energised district that has left its engine is out of play. -/
theorem RestartAgrees.leaveEnergised (h : RestartAgrees s) (hd : (s.dist d).state.energised = true) :
    OutOfPlay d (s.leaveEnergised d) := by
  unfold State.leaveEnergised
  split
  · next i hi =>
    refine (h.modDist d _ ?_).freeEngine (State.district_of_engineOf hi)
    split <;> rfl
  · next hnone =>
    refine h.outOfPlay ⟨fun hq => by simp [hq, DistrictState.energised] at hd, fun hr => ?_⟩
    obtain ⟨e, he⟩ := (h.placed d).ramping.mpr hr
    exact (s.engineOf_eq_none_iff d).mp hnone e he

/-- A district already out of play has no engine to leave. -/
theorem OutOfPlay.leaveEnergised (h : OutOfPlay d s) : OutOfPlay d (s.leaveEnergised d) := by
  unfold State.leaveEnergised
  rw [(s.engineOf_eq_none_iff d).mpr h.unheld]
  exact h

theorem RestartAgrees.furtherCut (h : RestartAgrees s) (n : SlotId) (d : DistrictId) (c : Cut) :
    RestartAgrees (s.furtherCut n d c) := by
  have hlatched := h.modDist d District.latchTripped rfl
  unfold State.furtherCut
  dsimp only
  split
  · exact (hlatched.modDist d (fun x => { x with lastCause := some c.cause }) rfl).of_eq rfl rfl rfl
  · exact hlatched

theorem OutOfPlay.solitary (h : OutOfPlay d s) (c : Cut) : RestartAgrees (s.solitary d c) := by
  have hrecorded : OutOfPlay d (s.recordSolitary d c) :=
    (h.of_eq (t := s.modRing (fun r => { r.raiseMissed with solitaryLoss := true })) rfl rfl rfl).modDist _
  have hclosed := hrecorded.enterCloseState
  unfold State.solitary
  dsimp only
  split
  · exact hclosed.modDist d _ rfl
  · exact hclosed

theorem RestartAgrees.nameSlot (h : RestartAgrees s) (d : DistrictId) (n : SlotId) :
    RestartAgrees (s.nameSlot d n) := h.modDist d _ rfl

theorem RestartAgrees.join (h : RestartAgrees s) (n : SlotId) (m : Member) : RestartAgrees (s.join n m) := by
  refine RestartAgrees.nameSlot ?_ m.district n
  exact h.of_eq rfl rfl rfl

theorem RestartAgrees.openSlot (h : RestartAgrees s) (n : SlotId) (m : Member) : RestartAgrees (s.openSlot n m) := by
  refine RestartAgrees.nameSlot ?_ m.district n
  exact h.of_eq rfl rfl rfl

/-- d TRIPPED in an incident, or in its close state where there is none to join or open. -/
theorem OutOfPlay.newTrip (h : OutOfPlay d (s.leaveEnergised d)) (c : Cut) : RestartAgrees (s.newTrip d c) := by
  have hout : OutOfPlay d ((s.leaveEnergised d).enterTripped d c) := (h.enter .tripped).modDist _
  have htripped : RestartAgrees ((s.leaveEnergised d).enterTripped d c) :=
    (h.enterPlaceless (by decide)).modDist d _ rfl
  unfold State.newTrip
  dsimp only
  split
  · exact htripped.join _ _
  · split
    · exact htripped.openSlot _ _
    · exact hout.solitary c

theorem OutOfPlay.reTrip (h : OutOfPlay d (s.leaveEnergised d)) (n : SlotId) (c : Cut) :
    RestartAgrees (s.reTrip n d c) := by
  have hout : OutOfPlay d (s.becomeSuspect n d c) :=
    ((h.modDist _).modDist (fun x => { x with role := .suspect })).of_eq rfl rfl rfl
  unfold State.reTrip
  dsimp only
  split
  · exact hout.enterPlaceless (by decide)
  · split
    · exact hout.enterLockout
    · exact hout.enterPlaceless (by decide)

/-- A cut offered for d. A RAMPING district always trips, so that it may be out of play already (R80). -/
theorem restartAgrees_takeCut (hout : (s.dist d).state.energised = true → OutOfPlay d (s.leaveEnergised d))
    (h : (s.dist d).state ≠ .ramping → RestartAgrees s) (c : Cut) : RestartAgrees (s.takeCut d c) := by
  unfold State.takeCut
  split
  · next n hn =>
    have hopen : (s.slot n).state.isOpen = true := by
      unfold State.openSlotOf at hn
      split at hn
      · split at hn
        · next ho => cases hn; exact ho
        · cases hn
      · cases hn
    split
    · split
      · next hst => exact (h (by rw [hst]; decide)).furtherCut n d c
      case _ hst | _ hst | _ hst =>
        exact ((hout (by rw [hst]; rfl)).enterPlaceless (by decide)).furtherCut n d c
      all_goals next hst => exact h (by rw [hst]; decide)
    · split
      · next he => exact (hout he).reTrip n c
      · next he => exact h (fun hr => he (by rw [hr]; rfl))
    all_goals next hst => rw [hst] at hopen; cases hopen
  · split
    · next he => exact (hout he).newTrip c
    · next he => exact h (fun hr => he (by rw [hr]; rfl))

theorem RestartAgrees.takeCut (h : RestartAgrees s) (d : DistrictId) (c : Cut) : RestartAgrees (s.takeCut d c) :=
  restartAgrees_takeCut h.leaveEnergised (fun _ => h) c

end

/-! ### Returns to the queue and sag notices (R60, R66, R83, R93, R94) -/

theorem RestartAgrees.returnEffect {s : State} (h : RestartAgrees s) (d : DistrictId) :
    RestartAgrees (s.returnEffect d) := by
  unfold State.returnEffect
  split
  · next hst => exact (h.freeEngineOf (by rw [hst]; decide)).returnToQueue
  · next hst => exact ((h.outOfPlay (by rw [hst]; decide)).modDist _).returnToQueue
  all_goals exact h

theorem RestartAgrees.returnClaim {s : State} (h : RestartAgrees s) (d : DistrictId) :
    RestartAgrees (State.returnClaim d s) := by
  unfold State.returnClaim
  split
  · exact h.claim d (h.returnEffect d)
  · exact h

theorem RestartAgrees.feedLeavesUp {s : State} (h : RestartAgrees s) (k : FeedId) :
    RestartAgrees (s.feedLeavesUp k) :=
  h.inFreeOrder _ (fun d _ ht => ht.returnClaim d)

theorem RestartAgrees.sagNotice {s : State} (h : RestartAgrees s) (k : FeedId) :
    RestartAgrees (State.sagNotice k s) :=
  State.sagNotice_keeps (fun _ _ _ ht => ht.of_eq rfl rfl rfl) (fun d _ ht => ht.returnClaim d)
    (fun _ ht => ht.of_eq rfl rfl rfl) k s h

/-! ### Closes (R38 to R44) -/

theorem RestartAgrees.giveRole {s : State} (h : RestartAgrees s) (m : Member) : RestartAgrees (s.giveRole m) := by
  unfold State.giveRole
  split
  · exact h
  · exact h.modDist _ _ rfl

theorem RestartAgrees.enterMember {s : State} (h : RestartAgrees s) (m : Member) :
    RestartAgrees (s.enterMember m) := by
  unfold State.enterMember
  split
  · exact h
  · next ht =>
    have hout : OutOfPlay m.district s := h.outOfPlay (by rw [Decidable.of_not_not ht]; decide)
    split
    · exact h.checkError _
    · split
      · exact hout.enterPlaceless (by decide)
      · exact hout.enterCloseState

theorem RestartAgrees.enterCloseStates {s : State} (h : RestartAgrees s) (n : SlotId) :
    RestartAgrees (s.enterCloseStates n) := by
  have hroles : RestartAgrees (s.fixRoles n) := by
    rw [s.fixRoles_eq]
    exact foldl_keeps State.giveRole _ (fun m _ _ ht => ht.giveRole m) _ (h.of_eq rfl rfl rfl)
  rw [s.enterCloseStates_eq]
  exact (foldl_keeps State.enterMember _ (fun m _ _ ht => ht.enterMember m) _ hroles).of_eq rfl rfl rfl

theorem RestartAgrees.closeGathering {s : State} (h : RestartAgrees s) (n : SlotId) :
    RestartAgrees (State.closeGathering n s) := by
  have hsettled := ((h.enterCloseStates n).settleSlot 33 n).rescan s
  unfold State.closeGathering State.afterClose
  dsimp only
  split
  · exact hsettled.inFreeOrder _ (fun k _ ht => ht.sagNotice k)
  · exact hsettled

theorem RestartAgrees.gatheringExpires {s : State} (h : RestartAgrees s) (n : SlotId) :
    RestartAgrees (State.gatheringExpires n s) := by
  have hstopped : RestartAgrees (s.modSlot n (fun x => { x with timer := .none })) := h.of_eq rfl rfl rfl
  unfold State.gatheringExpires
  dsimp only
  split
  · split
    · exact hstopped.closeGathering n
    · exact hstopped
  · exact h

theorem RestartAgrees.roundEnd {s : State} (h : RestartAgrees s) : RestartAgrees s.roundEnd := by
  unfold State.roundEnd
  refine RestartAgrees.inFreeOrder ?_ _ (fun n _ ht => ht.closeGathering n)
  exact h.of_eq rfl rfl rfl

/-! ### The timers of districts and engines (R18, R20, R78 to R80, R87) -/

theorem RestartAgrees.holdoffExpires {s : State} (h : RestartAgrees s) (d : DistrictId) :
    RestartAgrees (State.holdoffExpires d s) := by
  unfold State.holdoffExpires
  split
  · next hx =>
    have hout : OutOfPlay d s := h.outOfPlay (by rw [hx.1]; decide)
    refine h.claim d ?_
    unfold State.leaveHoldoff
    split
    · exact hout.enterPlaceless (by decide)
    · exact hout.enterQueued true
  · exact h

theorem RestartAgrees.provingExpires {s : State} (h : RestartAgrees s) (d : DistrictId) :
    RestartAgrees (State.provingExpires d s) := by
  unfold State.provingExpires
  split
  · next hx =>
    have hout : OutOfPlay d s := h.outOfPlay (by rw [hx.1]; decide)
    have hrestored : OutOfPlay d (s.restore d) := by
      unfold State.restore
      dsimp only
      split
      · exact (hout.modDist District.latchRestored).of_eq rfl rfl rfl
      · exact hout.modDist _
    refine h.claim d (OutOfPlay.enterPlaceless ?_ (by decide))
    split
    · exact hrestored
    · exact hout
  · exact h

theorem RestartAgrees.quietExpires {s : State} (h : RestartAgrees s) (d : DistrictId) :
    RestartAgrees (State.quietExpires d s) := by
  unfold State.quietExpires
  split
  · exact h.claim d (h.modDist d _ rfl)
  · exact h

/-- A stall abort takes d off its engine before its cut trips it (R80). -/
theorem RestartAgrees.stallAbort {s : State} (h : RestartAgrees s) {e : EngineId} {d : DistrictId}
    (he : (s.engine e).district = some d) : RestartAgrees (s.stallAbort e d) := by
  have hlatched := h.modDist d District.latchStalled rfl
  have hcounted : RestartAgrees ((s.modDist d District.latchStalled).countAttempt d) := by
    refine hlatched.modDist d _ ?_
    split <;> rfl
  have hfreed : OutOfPlay d (((s.modDist d District.latchStalled).countAttempt d).freeEngine e) :=
    hcounted.freeEngine he
  have hramping : ((((s.modDist d District.latchStalled).countAttempt d).freeEngine e).dist d).state = .ramping :=
    (hcounted.placed d).ramping.mp ⟨e, he⟩
  exact restartAgrees_takeCut (fun _ => hfreed.leaveEnergised) (fun hn => absurd hramping hn) _

theorem RestartAgrees.commandStep {s : State} (h : RestartAgrees s) (e : EngineId) (d : DistrictId) (i : Nat) :
    RestartAgrees (s.commandStep e d i) :=
  (h.modEngine e _ rfl).modDist d _ rfl

theorem RestartAgrees.stepExpires {s : State} (h : RestartAgrees s) (e : EngineId) :
    RestartAgrees (State.stepExpires e s) := by
  unfold State.stepExpires
  dsimp only
  split
  · next d _ hd _ =>
    split
    · split
      · exact h.commandStep e d _
      · exact h.claim d (h.completeRamp hd)
    · split
      · exact h.modEngine e _ rfl
      · exact h.claim d (h.stallAbort hd)
  · exact h

/-! ### Feeds and HOLD (R91, R92, R97, R157, R158) -/

section
variable {s : State} (h : RestartAgrees s) (k : FeedId)
include h

theorem RestartAgrees.lineLow : RestartAgrees (State.lineLow k s) := by
  have hdown : RestartAgrees (State.modFeed { s with lines := put s.lines k false } k
      (fun f => { f with state := .down, settleTimer := .none })) := h.of_eq rfl rfl rfl
  unfold State.lineLow
  dsimp only
  split
  · split
    · exact hdown.feedLeavesUp k
    · exact hdown
  · exact h

theorem RestartAgrees.lineHigh : RestartAgrees (State.lineHigh k s) := by
  unfold State.lineHigh
  dsimp only
  split
  · exact h
  · split <;> exact h.of_eq rfl rfl rfl

theorem RestartAgrees.settleExpires : RestartAgrees (State.settleExpires k s) := by
  unfold State.settleExpires
  split
  · split
    · exact h.of_eq rfl rfl rfl
    · exact RestartAgrees.scan (h.of_eq rfl rfl rfl)
  · exact h

omit k in
theorem RestartAgrees.drainExpires : RestartAgrees s.drainExpires := by
  unfold State.drainExpires
  dsimp only
  split
  · exact RestartAgrees.scan (h.of_eq rfl rfl rfl)
  · exact h.of_eq rfl rfl rfl

omit k in
theorem RestartAgrees.assertHold : RestartAgrees s.assertHold := by
  unfold State.assertHold
  split
  · exact h
  · refine RestartAgrees.inFreeOrder ?_ _ (fun d _ ht => ht.returnClaim d)
    exact h.of_eq rfl rfl rfl

omit k in
theorem RestartAgrees.releaseHold : RestartAgrees s.releaseHold := by
  unfold State.releaseHold
  split
  · exact RestartAgrees.scan (h.of_eq rfl rfl rfl)
  · exact h

end

end Sys2Proof.Machine
end

section
/-! SUPPORT. The link, host writes, commands and the access path keep the restart queue and the ramp engines
agreeing with the states (R64, R74), and so does every step. -/

namespace Sys2Proof.Machine

open Sys2Proof

/-! ### The link (R108 to R120) -/

theorem RestartAgrees.pollChannel {s : State} (h : RestartAgrees s) (k : NodeId) (c : ChannelId) :
    RestartAgrees (State.pollChannel k s c) := by
  unfold State.pollChannel
  split
  · exact h
  · split
    · exact (h.raiseCheck _).modDist _ _ rfl
    · exact h.modDist _ _ rfl

theorem RestartAgrees.formPoll {s : State} (h : RestartAgrees s) (k : NodeId) : RestartAgrees (s.formPoll k) := by
  have hpolled : RestartAgrees ((indices 4).foldl (State.pollChannel k) s) :=
    foldl_keeps _ _ (fun c _ _ ht => ht.pollChannel k c) s h
  unfold State.formPoll
  exact hpolled.of_eq rfl rfl rfl

theorem RestartAgrees.beginExchange {s : State} (h : RestartAgrees s) : RestartAgrees s.beginExchange := by
  unfold State.beginExchange
  split
  · exact h
  · refine RestartAgrees.formPoll ?_ _
    split
    · exact h.of_eq rfl rfl rfl
    · exact h

theorem RestartAgrees.lossClaim {s : State} (h : RestartAgrees s) (d : DistrictId) :
    RestartAgrees (State.lossClaim d s) := by
  refine h.claim d ?_
  unfold State.loseDistrict
  split
  -- UNREACHABLE, LOCKED and CHECK_HOLD stay; the other states are left for UNREACHABLE
  case h_1 | h_2 | h_3 => exact h
  all_goals exact (h.depart d).enterPlaceless (by decide)

theorem RestartAgrees.loseNode {s : State} (h : RestartAgrees s) (k : NodeId) : RestartAgrees (s.loseNode k) := by
  refine RestartAgrees.inFreeOrder ?_ _ (fun d _ ht => ht.lossClaim d)
  exact h.of_eq rfl rfl rfl

theorem RestartAgrees.missNode {s : State} (h : RestartAgrees s) (k : NodeId) : RestartAgrees (s.missNode k) := by
  unfold State.missNode
  split
  · exact h.of_eq rfl rfl rfl
  · split
    · exact h.of_eq rfl rfl rfl
    · refine RestartAgrees.loseNode ?_ k
      exact h.of_eq rfl rfl rfl
  · exact h.of_eq rfl rfl rfl

theorem RestartAgrees.restartedNode {s : State} (h : RestartAgrees s) (k : NodeId) :
    RestartAgrees (s.restartedNode k) := by
  have hnoted : RestartAgrees (s.modNode k (fun x => { x with restarted := true, misses := 3 })) :=
    h.of_eq rfl rfl rfl
  unfold State.restartedNode
  dsimp only
  split
  · exact hnoted.loseNode k
  · exact hnoted

theorem RestartAgrees.returnClaimAt {s : State} (h : RestartAgrees s) (k : NodeId) (c : ChannelId) :
    RestartAgrees (State.returnClaimAt k s c) := by
  unfold State.returnClaimAt
  split
  · next d _ =>
    split
    · next hst =>
      have hout : OutOfPlay d s := h.outOfPlay (by rw [hst]; decide)
      refine h.claimUnscanned d ?_
      unfold State.returnFromLoss
      split
      · exact hout.enterQueued false
      · exact hout.enterPlaceless (by decide)
    · exact h
  · exact h

theorem RestartAgrees.takeReadings {s : State} (h : RestartAgrees s) (d : DistrictId) (x : ChannelReport) :
    RestartAgrees (s.takeReadings d x) := by
  have hread : RestartAgrees (s.modDist d (fun y => { y with current := x.current })) := h.modDist d _ rfl
  unfold State.takeReadings
  dsimp only
  split
  · split
    · split
      · exact hread.modEngine _ _ rfl
      · exact hread
    · next hst =>
      split
      · exact ((h.outOfPlay (by rw [hst]; decide)).modDist _).enterPlaceless (by decide)
      · exact hread
    all_goals exact hread
  · exact hread

/-- A channel's readings and cut, taken by either kind of claim. -/
theorem RestartAgrees.takeChannel {s : State} (h : RestartAgrees s)
    {claim : State → DistrictId → (State → State) → State}
    (hclaim : ∀ t d f, RestartAgrees t → RestartAgrees (f t) → RestartAgrees (claim t d f)) (k : NodeId) (r : Report)
    (timeBase : Stamp) (c : ChannelId) : RestartAgrees (State.takeChannel claim k r timeBase s c) := by
  unfold State.takeChannel
  split
  · exact h
  · next d _ =>
    have hread := hclaim s d (fun u => u.takeReadings d (reportChannel r c)) h (h.takeReadings d (reportChannel r c))
    dsimp only
    split
    · exact hclaim _ d _ hread (hread.takeCut d _)
    · exact hread

theorem RestartAgrees.storeChannels {s : State} (h : RestartAgrees s) (k : NodeId) (r : Report) :
    RestartAgrees (s.storeChannels k r) := h.of_eq rfl rfl rfl

theorem RestartAgrees.returnNode {s : State} (h : RestartAgrees s) (k : NodeId) (r : Report) (timeBase : Stamp) :
    RestartAgrees (s.returnNode k r timeBase) := by
  have hreturned : RestartAgrees ((indices 4).foldl (State.returnClaimAt k) s) :=
    foldl_keeps _ _ (fun c _ _ ht => ht.returnClaimAt k c) s h
  exact RestartAgrees.rescan (foldl_keeps _ _
    (fun c _ _ ht => ht.takeChannel (fun _ d _ hu hf => hu.claimUnscanned d hf) k r timeBase c) _
    (hreturned.storeChannels k r)) s

theorem RestartAgrees.reportNode {s : State} (h : RestartAgrees s) (k : NodeId) (r : Report) (timeBase : Stamp) :
    RestartAgrees (s.reportNode k r timeBase) := by
  unfold State.reportNode
  dsimp only
  split
  · refine foldl_keeps _ _ (fun c _ _ ht => ht.takeChannel (fun _ d _ hu hf => hu.claim d hf) k r timeBase c) _
      (RestartAgrees.storeChannels ?_ k r)
    exact h.of_eq rfl rfl rfl
  · refine RestartAgrees.returnNode ?_ k r timeBase
    exact h.of_eq rfl rfl rfl

theorem RestartAgrees.endExchange {s : State} (h : RestartAgrees s) {f : Exchange → State → State}
    (hf : ∀ x t, RestartAgrees t → RestartAgrees (f x t)) : RestartAgrees (State.endExchange f s) := by
  unfold State.endExchange
  split
  · exact h
  · next x _ =>
    have hended : RestartAgrees (f x { s with exchange := .none, nextNode := nextAddress x.node }) :=
      hf x _ (h.of_eq rfl rfl rfl)
    dsimp only
    split
    · exact hended.roundEnd
    · exact hended

theorem RestartAgrees.judgeReport {s : State} (h : RestartAgrees s) (r : Report) (x : Exchange) :
    RestartAgrees (State.judgeReport r x s) := by
  unfold State.judgeReport
  split
  · split
    · exact h.restartedNode x.node
    · exact h.reportNode x.node r x.timeBase
  · exact h.missNode x.node

/-! ### Host writes (R3, R11 to R16, R23, R132, R136 to R143, R153 to R155) -/

theorem RestartAgrees.storeIntent {s : State} (h : RestartAgrees s) (p : IntentPos) (v : Word) :
    RestartAgrees (s.storeIntent p v) := by
  have hcopied : RestartAgrees (s.setCopy p v) := by
    cases p with
    | district d w => exact h.modDist d _ rfl
    | control | feed | adjacency => exact h.of_eq rfl rfl rfl
  exact hcopied.of_eq rfl rfl rfl

theorem RestartAgrees.readForWrite {s : State} (h : RestartAgrees s) (d : DistrictId) :
    RestartAgrees (s.readForWrite d) := by
  unfold State.readForWrite
  split
  · exact h.raiseCheck d
  · exact h

theorem RestartAgrees.storeFiltered {s : State} (h : RestartAgrees s) (d : DistrictId) (w : Fin 5) (v : Word)
    (refused : Bool) : RestartAgrees (s.storeFiltered d w v refused) := by
  have hstored := h.storeIntent (.district d w) v
  unfold State.storeFiltered
  dsimp only
  split
  · exact hstored.modDist d _ rfl
  · exact hstored

theorem RestartAgrees.start {s : State} (h : RestartAgrees s) {d : DistrictId}
    (hst : (s.dist d).state.Placeless) : RestartAgrees (s.start d) := by
  unfold State.start
  split
  · exact (h.outOfPlay hst).enterQueued false
  · exact (h.outOfPlay hst).enterPlaceless (by decide)

theorem RestartAgrees.setWithdrawn {s : State} (h : RestartAgrees s) (d : DistrictId) (b : Bool) :
    RestartAgrees (s.setWithdrawn d b) := by
  unfold State.setWithdrawn
  split
  · exact h.of_eq rfl rfl rfl
  · exact h

theorem RestartAgrees.intentMove {s : State} (h : RestartAgrees s) (d : DistrictId) (i : Intent) :
    RestartAgrees (s.intentMove d i) := by
  unfold State.intentMove
  split
  · split
    · next hst => exact h.start (by rw [hst]; decide)
    · next hst =>
      split
      · exact h.start (by rw [hst]; decide)
      · exact h
    · exact h.setWithdrawn d false
    all_goals exact h
  · split
    -- the ninth row is TRIPPED, withdrawn; the eight before it stop
    case h_9 => exact h.setWithdrawn d true
    case h_1 | h_2 | h_3 | h_4 | h_5 | h_6 | h_7 | h_8 => exact (h.depart d).enterPlaceless (by decide)
    all_goals exact h

theorem RestartAgrees.reloadWord {s : State} (h : RestartAgrees s) (d : DistrictId) (w : Fin 5) :
    RestartAgrees (s.reloadWord d w) := by
  unfold State.reloadWord
  dsimp only
  split
  · split
    · split
      · next hst => exact ((h.outOfPlay (by rw [hst]; decide)).modDist _).enterPlaceless (by decide)
      · exact h.modDist d _ rfl
    · exact h.modDist d _ rfl
  · exact h

theorem RestartAgrees.changeMapping {s : State} (h : RestartAgrees s) (d : DistrictId) :
    RestartAgrees (s.changeMapping d) := by
  have hjudged (t : State) (ht : RestartAgrees t) : RestartAgrees (t.judgeMapping d) := by
    unfold State.judgeMapping
    split
    · next hst =>
      have hout : OutOfPlay d t := ht.outOfPlay (by rw [hst]; decide)
      have hoff : RestartAgrees (t.enter d .off) := hout.enterPlaceless (by decide)
      split
      · split
        · split
          · exact hout.enterQueued false
          · exact hoff
        · exact ht
      · split
        · refine RestartAgrees.mark ?_ _
          exact hoff.modDist d _ rfl
        · exact hoff
    all_goals exact ht
  exact hjudged _ (h.modDist d _ rfl)

theorem RestartAgrees.writeHostIntent {s : State} (h : RestartAgrees s) (d : DistrictId) (v : Word) (l : Lanes) :
    RestartAgrees (State.writeHostIntent d v l s) :=
  ((((h.readForWrite d).storeFiltered d 0 _ _).intentMove d _).reloadWord d 0).finish _ d

theorem RestartAgrees.writeDistrictWord {s : State} (h : RestartAgrees s) (d : DistrictId) (w : Fin 5) (v : Word)
    (l : Lanes) : RestartAgrees (State.writeDistrictWord d w v l s) := by
  unfold State.writeDistrictWord
  dsimp only
  refine RestartAgrees.finish (RestartAgrees.reloadWord ?_ d w) _ d
  have hstored := (h.readForWrite d).storeFiltered d w
  split
  · exact (hstored _ _).changeMapping d
  · exact hstored _ _

theorem RestartAgrees.writeFeed {s : State} (h : RestartAgrees s) (k : FeedId) (r : FeedReg) (v : Word)
    (l : Lanes) : RestartAgrees (State.writeFeed k r v l s) := by
  unfold State.writeFeed
  dsimp only
  split
  case h_1 | h_2 => exact (h.storeIntent _ _).scan
  all_goals exact h.storeIntent _ _

theorem RestartAgrees.capAttempts {s : State} (h : RestartAgrees s) : RestartAgrees s.capAttempts :=
  h.of_same rfl (fun _ => rfl) (fun c => by rw [State.capAttempts, State.dist_tabulate])

theorem RestartAgrees.writeRingSetting {s : State} (h : RestartAgrees s) (r : RingReg) (v : Word) (l : Lanes) :
    RestartAgrees (State.writeRingSetting r v l s) := by
  unfold State.writeRingSetting
  dsimp only
  split
  · exact h.storeIntent _ _
  · refine RestartAgrees.mark ?_ _
    exact (h.storeIntent _ _).of_eq rfl rfl rfl

theorem RestartAgrees.enterLocked {s : State} (h : RestartAgrees s) (d : DistrictId) :
    RestartAgrees (s.enterLocked d) := by
  have hlocked : RestartAgrees ((s.depart d).enter d .locked) := (h.depart d).enterPlaceless (by decide)
  unfold State.enterLocked
  dsimp only
  split
  · refine RestartAgrees.mark ?_ _
    exact hlocked.modDist d _ rfl
  · exact hlocked

theorem RestartAgrees.exitLocked {s : State} (h : RestartAgrees s) (d : DistrictId) :
    RestartAgrees (s.exitLocked d) := by
  unfold State.exitLocked
  split
  · exact h
  · next hst =>
    have hout : OutOfPlay d s := h.outOfPlay (by rw [Decidable.of_not_not hst]; decide)
    split
    · exact hout.enterPlaceless (by decide)
    · split <;> exact hout.enterPlaceless (by decide)

theorem RestartAgrees.lockClaim {s : State} (h : RestartAgrees s) (d : DistrictId) {f : State → State}
    (hf : ∀ t, RestartAgrees t → RestartAgrees (f t)) : RestartAgrees (s.lockClaim d f) := by
  refine RestartAgrees.finish (hf _ ?_) s d
  split
  · exact h.checkError d
  · exact h

theorem RestartAgrees.writeLock {s : State} (h : RestartAgrees s) (g : LockHalf) (v : Word) (l : Lanes) :
    RestartAgrees (State.writeLock g v l s) := by
  unfold State.writeLock
  dsimp only
  refine RestartAgrees.inFreeOrder ?_ _ (fun d t ht => ?_)
  · exact foldl_keeps (P := RestartAgrees) _ _ (fun d _ _ ht => ht.modDist d District.latchRefused rfl) _
      (h.storeIntent _ _)
  · unfold State.membershipClaim
    split
    · exact ht.lockClaim d (fun _ hu => hu.enterLocked d)
    · exact ht.lockClaim d (fun _ hu => hu.exitLocked d)

/-- A host write to any intent word (R126). -/
theorem RestartAgrees.takeIntentWrite {s : State} (h : RestartAgrees s) (p : IntentPos) (v : Word) (l : Lanes) :
    RestartAgrees (State.takeIntentWrite p v l s) := by
  cases p with
  | control r =>
    cases r with
    | attemptLimit => exact (h.storeIntent _ _).capAttempts
    | ringBaseLow | ringBaseHigh | ringCapacity => exact h.writeRingSetting _ v l
    | lockSetLow | lockSetHigh => exact h.writeLock _ v l
    | gatheringWindow | provingWindow | quietInterval | holdoffBase | drainPeriod | faultMask | consumerIndex =>
      exact h.storeIntent _ _
  | feed k r => exact h.writeFeed k r v l
  | adjacency j => exact h.storeIntent _ _
  | district d w =>
    unfold State.takeIntentWrite
    dsimp only
    split
    · exact h.writeHostIntent d v l
    · exact h.writeDistrictWord d w v l

/-! ### Commands and actions (R17, R27, R89, R149 to R152) -/

theorem restartAgrees_of_rest {s : State} (hq : s.queue = []) (he : ∀ e, (s.engine e).district = .none)
    (hst : ∀ d, (s.dist d).state.Placeless) : RestartAgrees s := by
  refine (restartAgrees_iff s).mpr ⟨by rw [hq]; exact List.nodup_nil, fun d => ⟨?_, ?_, ?_⟩⟩
  · exact iff_of_false (by rw [hq]; exact List.not_mem_nil) (hst d).1
  · exact iff_of_false (fun ⟨e, hd⟩ => by rw [he e] at hd; cases hd) (hst d).2
  · intro e f hd
    rw [he e] at hd
    cases hd

theorem DistrictState.placeless_rested (st : DistrictState) : st.rested.Placeless := by
  cases st <;> decide

theorem restartAgrees_layoutReset (s : State) : RestartAgrees s.layoutReset := by
  refine restartAgrees_of_rest rfl (fun e => by rw [s.engine_layoutReset]) (fun d => ?_)
  have hstate : (s.layoutReset.dist d).state = (s.dist d).state.rested := by
    obtain ⟨v, agrees, hrest⟩ := (s.dist d).rest.restingIntent_eq
    rw [dist_layoutReset, hrest]
    rfl
  rw [hstate]
  exact (s.dist d).state.placeless_rested

theorem RestartAgrees.clearLockout {s : State} (h : RestartAgrees s) (d : DistrictId) :
    RestartAgrees (State.clearLockout d s) := by
  refine h.claim d ?_
  unfold State.clearLockoutAt
  split
  · next hst =>
    exact ((h.outOfPlay (by rw [hst]; decide)).enterPlaceless (by decide)).modDist d _ rfl
  · exact h

theorem RestartAgrees.clearFlagsAt {s : State} (h : RestartAgrees s) (d : DistrictId) :
    RestartAgrees (State.clearFlagsAt d s) :=
  h.claim d (h.modDist d _ rfl)

theorem RestartAgrees.clearAllLockouts {s : State} (h : RestartAgrees s) : RestartAgrees s.clearAllLockouts :=
  (h.inFreeOrder s.clearable (fun d _ ht => ht.clearLockout d)).of_eq rfl rfl rfl

theorem RestartAgrees.command {s : State} (h : RestartAgrees s) (code : Word) :
    RestartAgrees (State.command code s) := by
  unfold State.command
  split
  · exact restartAgrees_layoutReset s
  · split
    · exact h.clearAllLockouts
    · split
      · exact h.of_eq rfl rfl rfl
      · split
        · exact h
        · exact h.of_eq rfl rfl rfl

theorem RestartAgrees.action {s : State} (h : RestartAgrees s) (d : DistrictId) (code : Word) :
    RestartAgrees (State.action d code s) := by
  unfold State.action
  split
  · exact h.clearLockout d
  · split
    · exact h.clearFlagsAt d
    · exact h

/-! ### The access path (R123 to R132, R164, R165) -/

section
variable {P : State → Prop} {s : State} {r : Request}

/-- A property that the check of an intent read keeps is kept by what an access checks when it is taken. -/
theorem State.checkRequest_keeps (hread : ∀ p, P (s.checkRead p)) (h : P s) : P (s.checkRequest r) := by
  fun_cases State.checkRequest
  · exact hread _
  · exact h

/-- What an access served without the memory face can do (R126, R127). -/
theorem State.serve_keeps (hreturn : ∀ w, P (s.returnWord r.lanes w)) (hcause : P (s.readResetCause r.lanes))
    (hflags : ∀ d, P (s.readFlags d r.lanes)) (hcommand : ∀ code, P (s.command code))
    (haction : ∀ d code, P (s.action d code)) (h : P s) : P (s.serve r) := by
  fun_cases State.serve
  case case3 => exact hcause
  case case4 => exact hflags _
  case case7 => exact hcommand _
  case case8 => exact haction _ _
  case case1 | case2 | case5 | case6 => exact hreturn _
  all_goals exact h

/-- What an access carried out on the memory face can do (R123, R126). -/
theorem State.carryOut_keeps (hreturn : ∀ w, P (s.returnWord r.lanes w))
    (hwrite : ∀ p v, P (s.takeIntentWrite p v r.lanes)) (hforward : ∀ v, P (s.writeMem r.addr r.lanes v)) :
    P (s.carryOut r) := by
  fun_cases State.carryOut
  case case1 => exact hreturn _
  case case2 => exact hwrite _ _
  all_goals exact hforward _

end

theorem RestartAgrees.readFlags {s : State} (h : RestartAgrees s) (d : DistrictId) (l : Lanes) :
    RestartAgrees (State.readFlags d l s) := by
  refine RestartAgrees.modDist ?_ d District.clearFlags rfl
  exact h.of_eq rfl rfl rfl

theorem RestartAgrees.checkRead {s : State} (h : RestartAgrees s) (p : IntentPos) :
    RestartAgrees (s.checkRead p) := by
  unfold State.checkRead
  split
  · split
    · exact h.raiseCheck _
    · exact h
  · exact h

theorem RestartAgrees.checkRequest {s : State} (h : RestartAgrees s) (r : Request) :
    RestartAgrees (s.checkRequest r) :=
  State.checkRequest_keeps h.checkRead h

theorem RestartAgrees.serve {s : State} (h : RestartAgrees s) (r : Request) : RestartAgrees (s.serve r) :=
  State.serve_keeps (fun _ => h.of_eq rfl rfl rfl) (h.of_eq rfl rfl rfl) (fun d => h.readFlags d r.lanes) h.command
    h.action h

theorem RestartAgrees.carryOut {s : State} (h : RestartAgrees s) (r : Request) : RestartAgrees (s.carryOut r) :=
  State.carryOut_keeps (fun _ => h.of_eq rfl rfl rfl) (fun p v => h.takeIntentWrite p v r.lanes)
    (fun _ => h.of_eq rfl rfl rfl)

theorem RestartAgrees.seekFace {s : State} (h : RestartAgrees s) (r : Request) :
    RestartAgrees (State.seekFace r s) := by
  unfold State.seekFace
  split
  · refine RestartAgrees.carryOut ?_ r
    exact h.of_eq rfl rfl rfl
  · exact h.of_eq rfl rfl rfl
  · exact h.of_eq rfl rfl rfl
  · exact h

theorem RestartAgrees.withAccess {s : State} (h : RestartAgrees s) (a : Access) :
    RestartAgrees { s with access := a } := h.of_eq rfl rfl rfl

theorem RestartAgrees.placeAccess {s : State} (h : RestartAgrees s) (r : Request) :
    RestartAgrees (s.placeAccess r) := by
  have hchecked := h.checkRequest r
  unfold State.placeAccess
  dsimp only
  split
  · exact hchecked.seekFace r
  · exact (hchecked.serve r).withAccess _

theorem RestartAgrees.beginAccess {s : State} (h : RestartAgrees s) (r : Request) :
    RestartAgrees (State.beginAccess r s) := by
  unfold State.beginAccess
  split
  · exact h.placeAccess r
  all_goals exact h

theorem RestartAgrees.dropAccess {s : State} (h : RestartAgrees s) : RestartAgrees s.dropAccess := by
  unfold State.dropAccess
  split
  · split <;> exact h.of_eq rfl rfl rfl
  all_goals exact h

theorem RestartAgrees.endAccess {s : State} (h : RestartAgrees s) : RestartAgrees s.endAccess := by
  unfold State.endAccess
  split
  · exact h.of_eq rfl rfl rfl
  · exact h.of_eq rfl rfl rfl
  · exact h.dropAccess
  · exact h

theorem RestartAgrees.wholeAccess {s : State} (h : RestartAgrees s) (r : Request) {taken : State → State}
    (ht : RestartAgrees (taken s)) : RestartAgrees (s.wholeAccess r taken) := by
  unfold State.wholeAccess
  split
  · exact ht
  · exact h
  all_goals
    split
    · exact h.of_eq rfl rfl rfl
    all_goals exact h

theorem RestartAgrees.hostRead {s : State} (h : RestartAgrees s) (p : IntentPos) (l : Lanes) :
    RestartAgrees (State.hostRead p l s) := by
  have hchecked := h.checkRead p
  unfold State.hostRead
  dsimp only
  split
  · exact hchecked.of_eq rfl rfl rfl
  · exact hchecked.wholeAccess _ (hchecked.of_eq rfl rfl rfl)

theorem RestartAgrees.releaseFace {s : State} (h : RestartAgrees s) : RestartAgrees s.releaseFace := by
  unfold State.releaseFace
  split
  · refine RestartAgrees.placeAccess ?_ _
    exact h.of_eq rfl rfl rfl
  all_goals exact h.of_eq rfl rfl rfl

theorem RestartAgrees.startCorrection {s : State} (h : RestartAgrees s) : RestartAgrees s.startCorrection := by
  unfold State.startCorrection
  split
  · split
    · split
      · exact h.raiseCheck _
      · exact h.of_eq rfl rfl rfl
    · exact h.of_eq rfl rfl rfl
  · exact h

theorem RestartAgrees.completeCorrection {s : State} (h : RestartAgrees s) :
    RestartAgrees s.completeCorrection := by
  unfold State.completeCorrection
  split
  · refine RestartAgrees.releaseFace ?_
    unfold State.settleMark
    split <;> exact h.of_eq rfl rfl rfl
  all_goals exact h

theorem RestartAgrees.startRing {s : State} (h : RestartAgrees s) : RestartAgrees s.startRing := by
  unfold State.startRing
  split
  · split
    · exact h.of_eq rfl rfl rfl
    · split
      · exact h
      · exact h.of_eq rfl rfl rfl
  · exact h

theorem RestartAgrees.ringProgress {s : State} (h : RestartAgrees s) : RestartAgrees s.ringProgress := by
  unfold State.ringProgress
  split
  · split
    · exact h.of_eq rfl rfl rfl
    · obtain ⟨ring, slots, haccept⟩ := State.acceptRecord_eq (s.modRing (fun r =>
        { r with producer := (r.producer + 1) % s.control.capacity, records := r.records.drop 1, progress := .none }))
      rw [State.advanceProducer, haccept]
      exact h.of_eq rfl rfl rfl
  · exact h

theorem RestartAgrees.completeRing {s : State} (h : RestartAgrees s) : RestartAgrees s.completeRing := by
  unfold State.completeRing
  split
  · refine RestartAgrees.releaseFace (RestartAgrees.ringProgress ?_)
    exact h.of_eq rfl rfl rfl
  all_goals exact h

/-! ### Resets and time (R26, R106, R134) -/

theorem restartAgrees_afterFullReset (pins : Pins) (mem : List Host.Cell) (choices : Nat) (pending : List Instr) :
    RestartAgrees (State.afterFullReset pins mem choices pending) :=
  restartAgrees_of_rest rfl (fun e => by rw [engine_afterFullReset]; rfl)
    (fun d => by rw [dist_afterFullReset]; decide)

theorem RestartAgrees.holdReset {s : State} (h : RestartAgrees s) : RestartAgrees s.holdReset := by
  have hcut : RestartAgrees s.cutOff := by
    unfold State.cutOff
    split
    case h_1 | h_2 => exact h.of_eq rfl rfl rfl
    all_goals exact h
  exact hcut.of_eq rfl rfl rfl

theorem RestartAgrees.tick {s : State} (h : RestartAgrees s) : RestartAgrees s.tick := by
  refine h.of_same rfl (fun e => ?_) (fun d => ?_)
  · have he : s.tick.engine e = (s.engine e).tick := get_tabulate _ e
    rw [he]
    rfl
  · have hd : s.tick.dist d = (s.dist d).tick := get_tabulate _ d
    rw [hd]
    rfl

/-! ### Every step -/

theorem RestartAgrees.hostWrite {s : State} (h : RestartAgrees s) (p : IntentPos) (v : Word) (l : Lanes)
    {taken : State → State} (ht : RestartAgrees (taken s)) : RestartAgrees (State.hostWrite p v l taken s) :=
  h.wholeAccess _ ht

/-- No command disturbs the queue and the engines (R64, R74). -/
theorem RestartAgrees.exec {s t : State} (h : RestartAgrees s) (c : Instr) (hx : exec c s = .next t) :
    RestartAgrees t := by
  cases c <;> cases hx
  case fullReset pins => exact restartAgrees_afterFullReset pins _ _ _
  case resetHeld => exact h.holdReset
  all_goals refine h.running ?_
  case layoutReset => exact restartAgrees_layoutReset s
  case clearAllLockouts => exact h.clearAllLockouts
  case lockFreeze => exact h.of_eq rfl rfl rfl
  case unknownCommandCode code => exact h.command code
  case clearLockout d => exact h.clearLockout d
  case clearFlags d => exact h.clearFlagsAt d
  case hostIntentWrite d v l => exact h.hostWrite _ v l (h.writeHostIntent d v l)
  case districtWordWrite d w v l => exact h.hostWrite _ v l (h.writeDistrictWord d w.succ v l)
  case adjacencyWrite j v l => exact h.hostWrite _ v l (h.storeIntent _ _)
  case feedSettingWrite k r v l => exact h.hostWrite _ v l (h.writeFeed k r v l)
  case controlSettingWrite r v l => exact h.hostWrite _ v l (h.storeIntent _ _)
  case attemptLimitWrite v l => exact h.hostWrite _ v l (h.storeIntent _ _).capAttempts
  case faultMaskWrite v l => exact h.hostWrite _ v l (h.storeIntent _ _)
  case ringSettingWrite r v l => exact h.hostWrite _ v l (h.writeRingSetting r v l)
  case consumerIndexWrite v l => exact h.hostWrite _ v l (h.storeIntent _ _)
  case lockSetWrite g v l => exact h.hostWrite _ v l (h.writeLock g v l)
  case flagsRead d l => exact h.readFlags d l
  case lastResetCauseRead l => exact h.of_eq rfl rfl rfl
  case hostIntentRead p l => exact h.hostRead p l
  case hostAccessBegin r => exact h.beginAccess r
  case hostAccessEnd => exact h.endAccess
  case accessDrop => exact h.dropAccess
  case correctionWordStart => exact h.startCorrection
  case correctionWordComplete => exact h.completeCorrection
  case ringWordStart => exact h.startRing
  case ringWordComplete => exact h.completeRing
  case holdAssert => exact h.assertHold
  case holdRelease => exact h.releaseHold
  case boosterLineLow k => exact h.lineLow k
  case boosterLineHigh k => exact h.lineHigh k
  case settleExpiry k => exact h.settleExpires k
  case drainExpiry => exact h.drainExpires
  case holdoffExpiry d => exact h.holdoffExpires d
  case provingExpiry d => exact h.provingExpires d
  case quietExpiry d => exact h.quietExpires d
  case gatheringTimerExpiry n => exact h.gatheringExpires n
  case stepTimerExpiry e => exact h.stepExpires e
  case poll => exact h.beginExchange
  case report r => exact h.endExchange (fun x _ ht => ht.judgeReport r x)
  case missTimeout | missGap => exact h.endExchange (fun x _ ht => ht.missNode x.node)

/-- Settles O55: the command at the front of the queue, or a microsecond of time. -/
theorem stepKeepsQueueAndEnginesAgreeing : Obligations.StepKeepsQueueAndEnginesAgreeing := by
  intro s t h hstep
  unfold step at hstep
  split at hstep
  · next c rest _ =>
    have hrest : RestartAgrees { s with pending := rest } := h.of_eq rfl rfl rfl
    exact hrest.exec c hstep
  · cases hstep
    exact h.running h.tick

end Sys2Proof.Machine
end

section
/-! SUPPORT. The step timer's expiry (R75 to R81): a step passed, a stall, the end of a ramp, and its abort. -/

namespace Sys2Proof.Machine

open Sys2Proof

/-! ### The expiry, by what the step has shown (R78, R79) -/

/-- A step passes on a fresh reading at or below the engine's ceiling (R78). -/
theorem Engine.passes_iff (x : Engine) : x.passes = true ↔ ∃ r, x.reading = some r ∧ r.toNat ≤ x.ceiling := by
  unfold Engine.passes
  cases x.reading <;> simp

theorem Engine.passes_eq_false (x : Engine) (h : ∀ r, x.reading = some r → x.ceiling < r.toNat) :
    x.passes = false := by
  rw [Bool.eq_false_iff, ne_eq, x.passes_iff]
  rintro ⟨r, hr, hle⟩
  exact absurd hle (Nat.not_le_of_lt (h r hr))

section
variable {s : State} {e : EngineId} {d : DistrictId} (hr : s.inReset = false)
  (hd : (s.engine e).district = some d) (ht : (s.engine e).timer.isSome = true)
include hr hd ht

theorem exec_stepTimerExpiry_eq : exec (.stepTimerExpiry e) s = .next
    (if (s.engine e).passes then
      if (s.engine e).index + 1 < (s.engine e).steps then s.commandStep e d ((s.engine e).index + 1)
      else s.claim d (fun t => t.completeRamp e d)
    else if (s.engine e).stalls < 4 then
      s.modEngine e (fun x => { x with stalls := x.stalls + 1, timer := some (x.interval * 1000) })
    else s.claim d (fun t => t.stallAbort e d)) := by
  have h : exec (.stepTimerExpiry e) s = .next (s.running (State.stepExpires e)) := rfl
  obtain ⟨left, ht⟩ := Option.isSome_iff_exists.mp ht
  rw [h, s.running_of_run _ hr, State.stepExpires, hd, ht]

theorem exec_stepTimerExpiry_of_next (hp : (s.engine e).passes = true)
    (hi : (s.engine e).index + 1 < (s.engine e).steps) :
    exec (.stepTimerExpiry e) s = .next (s.commandStep e d ((s.engine e).index + 1)) := by
  rw [exec_stepTimerExpiry_eq hr hd ht, if_pos hp, if_pos hi]

theorem exec_stepTimerExpiry_of_last (hc : s.passes d) (hp : (s.engine e).passes = true)
    (hi : (s.engine e).steps ≤ (s.engine e).index + 1) :
    exec (.stepTimerExpiry e) s = .next (s.finish d (s.completeRamp e d)) := by
  rw [exec_stepTimerExpiry_eq hr hd ht, if_pos hp, if_neg (Nat.not_lt_of_le hi), s.claim_of_passes d _ hc]

theorem exec_stepTimerExpiry_of_stall (hp : (s.engine e).passes = false) (hn : (s.engine e).stalls < 4) :
    exec (.stepTimerExpiry e) s = .next (s.modEngine e (fun x =>
      { x with stalls := x.stalls + 1, timer := some (x.interval * 1000) })) := by
  rw [exec_stepTimerExpiry_eq hr hd ht, hp, if_neg Bool.false_ne_true, if_pos hn]

theorem exec_stepTimerExpiry_of_abort (hc : s.passes d) (hp : (s.engine e).passes = false)
    (hn : 4 ≤ (s.engine e).stalls) :
    exec (.stepTimerExpiry e) s = .next (s.finish d (s.stallAbort e d)) := by
  rw [exec_stepTimerExpiry_eq hr hd ht, hp, if_neg Bool.false_ne_true, if_neg (Nat.not_lt_of_le hn),
    s.claim_of_passes d _ hc]

end

/-! ### The duty of a step (R75) -/

/-- A step short of the last of at most 16 has a duty of 1 to 15 sixteenths. -/
theorem stepDuty_bounds {i n : Nat} (hi : 1 ≤ i) (hin : i < n) (hn : n ≤ 16) :
    1 ≤ 16 * i / n ∧ 16 * i / n ≤ 15 := by
  have hpos : 0 < n := by omega
  exact ⟨(Nat.le_div_iff_mul_le hpos).mpr (by omega),
    Nat.le_of_lt_succ ((Nat.div_lt_iff_lt_mul hpos).mpr (by omega))⟩

/-- Settles O46, by the step's reading: one that passes commands the next step, none that does stalls. -/
theorem stepTimerPassesOrStallsStep : Obligations.StepTimerPassesOrStallsStep := by
  intro s e d hr hd ht
  refine ⟨fun r hread hle hi => ⟨?_, stepDuty_bounds (Nat.le_add_left 1 _) hi⟩, fun hnone hn => ?_⟩
  · rw [exec_stepTimerExpiry_of_next hr hd ht ((s.engine e).passes_iff.mpr ⟨r, hread, hle⟩) hi]
    rfl
  · exact exec_stepTimerExpiry_of_stall hr hd ht ((s.engine e).passes_eq_false hnone) hn

/-! ### The end of a ramp (R78, R81, R86) -/

/-- What the end of a ramp gives, field by field. -/
theorem RampCompleted.spec {s u : State} {e : EngineId} {d : DistrictId}
    (h : RampCompleted s e (s.engine e).feed d u) :
    (u.dist d).state = .proving ∧ (u.dist d).level = 16 ∧ (u.dist d).mark = (s.dist d).mark
      ∧ (u.dist d).provingTimer = some (field s.control.provingWindow 0 8 * 10000)
      ∧ (u.dist d).attempts = (if (s.dist d).mark then
          min ((s.dist d).attempts + 1) s.control.limit else (s.dist d).attempts)
      ∧ (u.engine e).district = .none ∧ (u.engine e).index = 0 ∧ (u.engine e).timer = .none
      ∧ (u.feed (s.engine e).feed).engaged = (s.feed (s.engine e).feed).engaged - 1
      ∧ (u.feed (s.engine e).feed).stress = (s.feed (s.engine e).feed).stress
      ∧ u.slots = s.slots ∧ (∀ f : DistrictId, f ≠ d → u.dist f = s.dist f) := by
  unfold RampCompleted at h
  subst h
  have hdist := get_put_same s.districts d
  have hengine := get_put_same s.engines e
  have hfeed := get_put_same s.feeds (s.engine e).feed
  simp only [State.dist, State.engine, State.feed] at hdist hengine hfeed ⊢
  rw [hdist, hengine, hfeed]
  exact ⟨rfl, rfl, rfl, rfl, rfl, rfl, rfl, rfl, rfl, rfl, trivial, fun f hf => get_put_other _ _ _ _ hf⟩

/-! ### The stall abort (R80) -/

section
variable (s : State) (e : EngineId) (d : DistrictId)

/-- s with d, RAMP_STALLED latched and its attempt counted, off engine e: a stall abort before its cut (R80). -/
def State.stalledOff : State := ((s.modDist d District.latchStalled).countAttempt d).freeEngine e

theorem State.stallAbort_eq : s.stallAbort e d = (s.stalledOff e d).takeCut d (s.stalledOff e d).stallCut := rfl

theorem State.dist_stalledOff : (s.stalledOff e d).dist d = { s.dist d with
    flags := { (s.dist d).flags with rampStalled := true }
    attempts := if (s.dist d).mark then
      min ((s.dist d).attempts + 1) s.control.limit else (s.dist d).attempts } := by
  have h : (s.stalledOff e d).dist d = ((s.modDist d District.latchStalled).countAttempt d).dist d := rfl
  rw [h, State.countAttempt, State.modDist_modDist, State.dist_modDist_same]
  cases hm : (s.dist d).mark <;> simp [District.latchStalled, hm]

theorem State.engine_stalledOff_same : (s.stalledOff e d).engine e =
    { s.engine e with district := .none, index := 0, stalls := 0, timer := .none } := by
  rw [State.stalledOff, State.freeEngine, State.engine_modEngine_same]
  rfl

theorem State.feed_stalledOff : (s.stalledOff e d).feed (s.engine e).feed =
    { s.feed (s.engine e).feed with engaged := (s.feed (s.engine e).feed).engaged - 1 } :=
  s.feed_modFeed_same _ (fun f => { f with engaged := f.engaged - 1 })

/-- Held by engine e alone, d is on no engine once e is freed. -/
theorem State.engineOf_stalledOff (h : ∀ f, f ≠ e → (s.engine f).district ≠ some d) :
    (s.stalledOff e d).engineOf d = .none := by
  refine (State.engineOf_eq_none_iff _ d).mpr (fun f hf => ?_)
  by_cases hfe : f = e
  · rw [hfe, s.engine_stalledOff_same e d] at hf
    cases hf
  · rw [State.stalledOff, State.engine_freeEngine_other _ hfe] at hf
    exact h f hfe hf

end

/-! ### An incident opened (R30, R32, R34) -/

/-- With no slot GATHERING there is no incident to join (R33). -/
theorem State.joinTarget_of_no_gathering (s : State) (d : DistrictId) (stamp : Stamp)
    (h : ∀ m, (s.slot m).state ≠ .gathering) : s.joinTarget d stamp = .none := by
  have hnone : (indices 4).filter (s.qualifies d stamp) = [] :=
    List.filter_eq_nil_iff.mpr (fun m _ hq => h m ((s.qualifies_iff d stamp m).mp hq).1)
  rw [State.joinTarget, hnone]
  rfl

/-- The lowest-numbered FREE slot is the one found (R34). -/
theorem State.freeSlot_of_lowest (s : State) {n : SlotId} (hn : (s.slot n).state = .free)
    (hlow : ∀ m, m < n → (s.slot m).state ≠ .free) : s.freeSlot = some n := by
  refine List.find?_eq_some_iff_getElem.mpr ⟨by simp [hn], n.val, by simp, by simp, fun i hi => ?_⟩
  simpa using hlow ⟨i, Nat.lt_trans hi n.isLt⟩ hi

/-- An energised district in no incident takes a cut as a new trip (R31). -/
theorem State.takeCut_of_solo (s : State) (d : DistrictId) (c : Cut) (hn : (s.dist d).incidentSlot = .none)
    (he : (s.dist d).state.energised = true) : s.takeCut d c = s.newTrip d c := by
  have hopen : s.openSlotOf d = .none := by rw [State.openSlotOf, hn]
  rw [State.takeCut, hopen]
  exact if_pos he

/-- A new trip of a district on no engine opens FREE slot n, no slot being there to join (R32, R34). -/
theorem State.newTrip_of_open (s : State) (d : DistrictId) (c : Cut) {n : SlotId} (he : s.engineOf d = .none)
    (hg : ∀ m, (s.slot m).state ≠ .gathering) (hn : (s.slot n).state = .free)
    (hlow : ∀ m, m < n → (s.slot m).state ≠ .free) : s.newTrip d c =
      (s.enterTripped d c).openSlot n (newMember d c ((s.dist d).state == .proving)) := by
  have hleft : s.leaveEnergised d = s := by rw [State.leaveEnergised, he]
  have hjoin : (s.enterTripped d c).joinTarget d c.stamp = .none := State.joinTarget_of_no_gathering _ d _ hg
  have hfree : (s.enterTripped d c).freeSlot = some n := State.freeSlot_of_lowest _ hn hlow
  rw [State.newTrip, hleft, hjoin, hfree]

/-- The slot that an incident of first member m opens (R30, R34). -/
theorem State.slot_openSlot (s : State) (n : SlotId) (m : Member) : (s.openSlot n m).slot n =
    { Slot.blank with
      state := .gathering
      id := s.nextId
      anchor := m.stamp
      openTime := s.timeBase
      members := [m]
      timer := some s.control.gatheringMicros
      anySaturated := m.saturated } :=
  get_put_same s.slots n _

/-- The context of the first member of an incident opened (R32). -/
theorem State.dist_openSlot (s : State) (n : SlotId) (d : DistrictId) (c : Cut) (wasProving : Bool) :
    (s.openSlot n (newMember d c wasProving)).dist d =
      { s.dist d with incidentSlot := some n, lastIncident := some s.nextId, role := .none } := by
  have hid : ((s.openSlot n (newMember d c wasProving)).slot n).id = s.nextId := by rw [s.slot_openSlot]
  rw [← hid]
  exact State.dist_modDist_same _ d _

/-- The context of a district that trips (R32 step 2). -/
theorem State.dist_enterTripped (s : State) (d : DistrictId) (c : Cut) : (s.enterTripped d c).dist d =
    { (s.dist d).enter s.control .tripped with
      lastCause := some c.cause
      flags := { (s.dist d).flags with tripped := true } } := by
  rw [State.enterTripped, State.dist_modDist_same, State.dist_enter_same]
  rfl

/-- A stall abort of d, in no incident, with no slot GATHERING: slot n opens with d (R80). -/
theorem State.stallAbort_of_open (s : State) {e : EngineId} {d : DistrictId} {n : SlotId}
    (hst : (s.dist d).state = .ramping) (honly : ∀ f, f ≠ e → (s.engine f).district ≠ some d)
    (hi : (s.dist d).incidentSlot = .none) (hg : ∀ m, (s.slot m).state ≠ .gathering)
    (hn : (s.slot n).state = .free) (hlow : ∀ m, m < n → (s.slot m).state ≠ .free) : s.stallAbort e d =
      ((s.stalledOff e d).enterTripped d s.stallCut).openSlot n (newMember d s.stallCut false) := by
  have hcontext := s.dist_stalledOff e d
  have hramping : ((s.stalledOff e d).dist d).state = .ramping := by rw [hcontext]; exact hst
  rw [s.stallAbort_eq, State.takeCut_of_solo _ d _ (by rw [hcontext]; exact hi) (by rw [hramping]; rfl),
    State.newTrip_of_open _ d _ (s.engineOf_stalledOff e d honly) hg hn hlow, hramping]
  rfl

/-- Settles O47: the last step ends the ramp, and a fifth stall trips the district in an incident of its own. -/
theorem stepTimerCompletesOrAbortsRamp : Obligations.StepTimerCompletesOrAbortsRamp := by
  intro s e d hr hd ht hst hc honly
  refine ⟨fun hread hi => ?_, fun hnone hstalls hslot hg n hn hlow => ?_⟩
  · exact ⟨_, exec_stepTimerExpiry_of_last hr hd ht hc ((s.engine e).passes_iff.mpr hread) hi,
      (rampCompleted_completeRamp s e d hst).spec⟩
  · refine ⟨_, exec_stepTimerExpiry_of_abort hr hd ht hc ((s.engine e).passes_eq_false hnone)
      (by rw [hstalls]), ?_⟩
    rw [s.stallAbort_of_open hst honly hslot hg hn hlow]
    have hengine : (((s.stalledOff e d).enterTripped d s.stallCut).openSlot n
        (newMember d s.stallCut false)).engine e = (s.stalledOff e d).engine e := rfl
    have hfeed : (((s.stalledOff e d).enterTripped d s.stallCut).openSlot n
        (newMember d s.stallCut false)).feed (s.engine e).feed = (s.stalledOff e d).feed (s.engine e).feed := rfl
    rw [State.dist_openSlot, State.dist_enterTripped, s.dist_stalledOff, State.slot_openSlot, hengine, hfeed,
      s.engine_stalledOff_same, s.feed_stalledOff]
    exact ⟨rfl, rfl, rfl, rfl, rfl, rfl, rfl, rfl, rfl, rfl, rfl, rfl, rfl, rfl, rfl, rfl, rfl⟩

end Sys2Proof.Machine
end

section
/-! SUPPORT. The proving and quiet expiries (R20, R87), and the notice of a member that comes to LIVE: the close of
its incident with the record (R49, R50, R162), or the release of the first GATED suspect (R46, R47). -/

namespace Sys2Proof.Machine

open Sys2Proof

/-! ### The proving expiry (R48, R87) -/

theorem exec_provingExpiry_of_running {s : State} {d : DistrictId} (hr : s.inReset = false) (hp : s.passes d)
    (hs : (s.dist d).state = .proving) (ht : (s.dist d).provingTimer.isSome = true) :
    exec (.provingExpiry d) s = .next (s.finish d (s.becomeLive d)) := by
  have h : exec (.provingExpiry d) s = .next (s.running (State.provingExpires d)) := rfl
  rw [h, s.running_of_run _ hr, State.provingExpires, if_pos ⟨hs, ht⟩, s.claim_of_passes d _ hp]

/-- A PROVING context come to LIVE: RESTORED latched if the mark was on, and the quiet timer started. -/
def District.settledLive (c : Control) (x : District) : District :=
  { x with
    flags := { x.flags with restored := x.flags.restored || x.mark }
    state := .live
    level := 16
    mark := false
    holdoffTimer := .none
    provingTimer := .none
    quietTimer := some c.quietMicros }

theorem District.enter_live (c : Control) {x : District} (h : x.state = .proving) : x.enter c .live =
    { x with
      state := .live
      level := 16
      mark := false
      holdoffTimer := .none
      provingTimer := .none
      quietTimer := some c.quietMicros } := by
  simp [District.enter, levelOnEntry, markOnEntry, District.dropsRole, h]

/-- A restored district that is a member of open slot n joins its restored set, and no other slot changes. -/
theorem State.slot_restore (s : State) (d : DistrictId) (n : SlotId) : (s.restore d).slot n =
    { s.slot n with
      restored := if s.openSlotOf d = some n then addDistrict (s.slot n).restored d else (s.slot n).restored } := by
  unfold State.restore
  dsimp only
  cases s.openSlotOf d with
  | none => rfl
  | some m =>
    refine (State.slot_modSlot _ m _ n).trans ?_
    by_cases h : n = m
    · subst h; simp
    · simp [h, Ne.symm h]

section
variable {s : State} {d : DistrictId} (hs : (s.dist d).state = .proving)

theorem State.slot_becomeLive (n : SlotId) : (s.becomeLive d).slot n =
    { s.slot n with
      restored := if (s.dist d).mark = true ∧ s.openSlotOf d = some n then addDistrict (s.slot n).restored d
        else (s.slot n).restored } := by
  have hslot : (s.becomeLive d).slot n = (if (s.dist d).mark then s.restore d else s).slot n := rfl
  rw [hslot]
  cases (s.dist d).mark with
  | true => simpa using s.slot_restore d n
  | false => simp

include hs

/-- What a proving expiry changes: the context of d, and the restored set of its slot. -/
theorem State.becomeLive_eq : s.becomeLive d =
    { s with
      districts := put s.districts d ((s.dist d).settledLive s.control)
      slots := (s.becomeLive d).slots } := by
  unfold State.becomeLive
  cases hm : (s.dist d).mark with
  | false =>
    rw [if_neg Bool.false_ne_true, State.enter, State.modDist, District.enter_live _ hs]
    simp only [District.settledLive, hm, Bool.or_false]
  | true =>
    have hlatched (t : State) (ht : t.dist d = (s.dist d).latchRestored) (hc : t.control = s.control) :
        (t.dist d).enter t.control .live = (s.dist d).settledLive s.control := by
      rw [District.enter_live _ (by rw [ht]; exact hs), ht, hc, District.settledLive, hm, Bool.or_true]
      rfl
    rw [if_pos rfl, State.enter, State.modDist, hlatched]
    · unfold State.restore
      cases s.openSlotOf d <;> simp only [State.modDist, State.modSlot, put_put]
    · unfold State.restore
      cases s.openSlotOf d <;> exact s.dist_modDist_same d _
    · unfold State.restore
      cases s.openSlotOf d <;> rfl

theorem State.dist_becomeLive_same : (s.becomeLive d).dist d = (s.dist d).settledLive s.control := by
  rw [State.becomeLive_eq hs]
  exact get_put_same _ _ _

theorem State.dist_becomeLive_other {e : DistrictId} (h : e ≠ d) : (s.becomeLive d).dist e = s.dist e := by
  rw [State.becomeLive_eq hs]
  exact get_put_other _ _ _ _ h

/-- The context and the restored set after a proving expiry, and what it leaves. -/
theorem State.becomeLive_spec :
    ((s.becomeLive d).dist d).state = .live ∧ ((s.becomeLive d).dist d).level = 16
      ∧ ((s.becomeLive d).dist d).mark = false ∧ ((s.becomeLive d).dist d).provingTimer = .none
      ∧ ((s.becomeLive d).dist d).quietTimer = some (field s.control.quietInterval 0 8 * 1000000)
      ∧ ((s.becomeLive d).dist d).attempts = (s.dist d).attempts
      ∧ ((s.becomeLive d).dist d).polarity = (s.dist d).polarity
      ∧ ((s.dist d).mark = true → ((s.becomeLive d).dist d).flags = { (s.dist d).flags with restored := true }
          ∧ ∀ n : SlotId, s.openSlotOf d = some n → (s.becomeLive d).slot n =
            { s.slot n with restored := (s.slot n).restored ||| BitVec.twoPow 32 d.val })
      ∧ ((s.dist d).mark = false → ((s.becomeLive d).dist d).flags = (s.dist d).flags
          ∧ (s.becomeLive d).slots = s.slots)
      ∧ (s.becomeLive d).queue = s.queue ∧ (s.becomeLive d).engines = s.engines
      ∧ (s.becomeLive d).feeds = s.feeds ∧ ∀ e : DistrictId, e ≠ d → (s.becomeLive d).dist e = s.dist e := by
  rw [State.dist_becomeLive_same hs]
  refine ⟨rfl, rfl, rfl, rfl, rfl, rfl, rfl, fun hm => ⟨?_, fun n hn => ?_⟩, fun hm => ⟨?_, ?_⟩, ?_, ?_, ?_,
    fun e he => State.dist_becomeLive_other hs he⟩
  · simp only [District.settledLive, hm, Bool.or_true]
  · rw [State.slot_becomeLive, if_pos ⟨hm, hn⟩]
    rfl
  · simp only [District.settledLive, hm, Bool.or_false]
  · refine table_ext (fun n => ?_)
    have hslot := State.slot_becomeLive (s := s) (d := d) n
    rwa [if_neg (fun h => by simp [hm] at h)] at hslot
  all_goals rw [State.becomeLive_eq hs]

/-- The notice of a member that comes to LIVE (R10). -/
theorem State.finish_becomeLive {n : SlotId} (hn : (s.dist d).incidentSlot = some n) :
    s.finish d (s.becomeLive d) = s.rescan (settleSlot 33 n (s.becomeLive d)) := by
  have hdist := State.dist_becomeLive_same hs
  rw [State.finish, s.notify_of_member d _ n]
  · rw [hs, hdist]
    change DistrictState.proving ≠ .live
    decide
  · rw [hdist]
    exact hn

end

/-! ### The quiet expiry (R20) -/

theorem exec_quietExpiry_of_running {s : State} {d : DistrictId} (hr : s.inReset = false) (hp : s.passes d)
    (hs : (s.dist d).state = .live) (ht : (s.dist d).quietTimer.isSome = true) :
    exec (.quietExpiry d) s = .next (s.modDist d (fun x => { x with attempts := 0, quietTimer := .none })) := by
  have h : exec (.quietExpiry d) s = .next (s.running (State.quietExpires d)) := rfl
  rw [h, s.running_of_run _ hr, State.quietExpires, if_pos ⟨hs, ht⟩, s.claim_of_passes d _ hp]
  exact congrArg Host.Outcome.next (s.finish_of_same d _ (by rw [State.dist_modDist_same]) rfl rfl)

/-! ### The close of a slot (R49, R50, R162) -/

theorem District.leaveIncident_idem (n : SlotId) (x : District) :
    (x.leaveIncident n).leaveIncident n = x.leaveIncident n := by
  unfold District.leaveIncident
  split <;> simp_all

/-- Each district of the list leaves the incident of slot n, and no other context changes. -/
theorem dist_foldl_leaveIncident (n : SlotId) (d : DistrictId) : ∀ (l : List Member) (s : State),
    (l.foldl (fun t m => t.modDist m.district (District.leaveIncident n)) s).dist d =
      if d ∈ l.map Member.district then (s.dist d).leaveIncident n else s.dist d := by
  intro l
  induction l with
  | nil => intro s; rfl
  | cons m l ih =>
    intro s
    rw [List.foldl_cons, ih, State.dist_modDist]
    by_cases hm : d = m.district
    · subst hm; simp [District.leaveIncident_idem]
    · simp [hm]

/-- Slot n of s CLOSING at the end of the Ring Writer's list, its members out of it: a close before the Ring Writer
looks for room (R49). -/
def State.awaitRing (s : State) (n : SlotId) : State :=
  (((s.slot n).members.foldl (fun t m => t.modDist m.district (District.leaveIncident n)) s).modSlot n
    (fun x => { x with state := .closing })).modRing (fun r => { r with closing := r.closing ++ [n] })

theorem State.closeSlot_eq_acceptRecord (s : State) (n : SlotId) : s.closeSlot n = (s.awaitRing n).acceptRecord := rfl

theorem State.acceptRecord_of_first (s : State) {n : SlotId} {rest : List SlotId}
    (h : s.ring.records.length < 4) (hc : s.ring.closing = n :: rest) : s.acceptRecord =
      (s.modRing (fun r => { r with records := r.records ++ [(s.slot n).record], closing := rest })).modSlot n
        (fun _ => Slot.blank) := by
  rw [State.acceptRecord, if_pos h, hc]

section
variable (s : State) (n : SlotId)

theorem State.awaitRing_eq : ∃ contexts, s.awaitRing n = { s with
    districts := contexts
    slots := put s.slots n { s.slot n with state := .closing }
    ring := { s.ring with closing := s.ring.closing ++ [n] } } := by
  obtain ⟨contexts, hleave, -⟩ := foldl_leaveIncident_eq n (s.slot n).members s
  exact ⟨contexts, by rw [State.awaitRing, hleave]; rfl⟩

theorem State.ring_awaitRing : (s.awaitRing n).ring = { s.ring with closing := s.ring.closing ++ [n] } := by
  obtain ⟨contexts, h⟩ := s.awaitRing_eq n
  rw [h]

theorem State.slot_awaitRing (m : SlotId) : (s.awaitRing n).slot m =
    if m = n then { s.slot n with state := .closing } else s.slot m := by
  obtain ⟨contexts, h⟩ := s.awaitRing_eq n
  rw [h]
  exact get_put _ _ _ _

theorem State.dist_closeSlot (d : DistrictId) : (s.closeSlot n).dist d =
    if d ∈ (s.slot n).members.map Member.district then (s.dist d).leaveIncident n else s.dist d := by
  obtain ⟨ring, slots, h⟩ := (s.awaitRing n).acceptRecord_eq
  rw [s.closeSlot_eq_acceptRecord, h, ← dist_foldl_leaveIncident]
  rfl

/-- With four records pending the slot waits in CLOSING (R50). -/
theorem State.closeSlot_of_full (h : 4 ≤ s.ring.records.length) : s.closeSlot n = s.awaitRing n := by
  rw [s.closeSlot_eq_acceptRecord, State.acceptRecord, s.ring_awaitRing]
  exact if_neg (Nat.not_lt_of_le h)

/-- With room, and no slot waiting before it, the slot's record is accepted and the slot is FREE (R162). -/
theorem State.closeSlot_of_room (h : s.ring.records.length < 4) (hc : s.ring.closing = []) : s.closeSlot n =
    ((s.awaitRing n).modRing (fun r => { r with
      records := r.records ++ [({ s.slot n with state := .closing } : Slot).record]
      closing := [] })).modSlot n (fun _ => Slot.blank) := by
  have hring := s.ring_awaitRing n
  rw [s.closeSlot_eq_acceptRecord, State.acceptRecord_of_first (n := n) (rest := []) _ (by rw [hring]; exact h)
    (by rw [hring, hc]; rfl), s.slot_awaitRing, if_pos rfl]

/-- No other slot changes where none waits (R162). -/
theorem State.slot_closeSlot_other {m : SlotId} (hm : m ≠ n)
    (h : 4 ≤ s.ring.records.length ∨ s.ring.closing = []) : (s.closeSlot n).slot m = s.slot m := by
  by_cases hfull : 4 ≤ s.ring.records.length
  · rw [s.closeSlot_of_full n hfull, s.slot_awaitRing, if_neg hm]
  · rw [s.closeSlot_of_room n (Nat.lt_of_not_le hfull) (h.resolve_left hfull), State.slot_modSlot_other _ _ _ _ hm,
      State.modRing_slot, s.slot_awaitRing, if_neg hm]

end

/-- One slot that is open no more, with the others' states as they were (R29). -/
theorem State.openCount_of_closed {s t : State} {n : SlotId} (hs : (s.slot n).state.isOpen = true)
    (ht : (t.slot n).state.isOpen = false) (ho : ∀ m, m ≠ n → t.slot m = s.slot m) :
    t.openCount + 1 = s.openCount := by
  have hperm : (indices 4).Perm (n :: (indices 4).erase n) := List.perm_cons_erase (List.mem_finRange n)
  have hrest : ((indices 4).erase n).countP (fun m => (t.slot m).state.isOpen) =
      ((indices 4).erase n).countP (fun m => (s.slot m).state.isOpen) := by
    refine List.countP_congr (fun m hm => ?_)
    rw [ho m ((List.nodup_finRange 4).mem_erase_iff.mp hm).1]
  simp only [State.openCount, ← List.countP_eq_length_filter, hperm.countP_eq, List.countP_cons, hs, ht, hrest]
  simp

/-! ### The release of a suspect (R46, R47) -/

/-- Through an open gate the first GATED suspect is released; as a restarting member it shuts the gate behind
itself, so that nothing else is released. -/
theorem settleSlot_releases {s : State} {n : SlotId} {q : DistrictId} (fuel : Nat)
    (hr : (s.slot n).state = .recovering) (hopen : ∀ m ∈ (s.slot n).members, ¬ShutsGate s m)
    {entry : Member} (hm : entry ∈ (s.slot n).members) (hq : entry.district = q) (hrole : entry.role = .suspect)
    (hgated : (s.dist q).state = .gated) (hp : s.passes q) (hfirst : s.firstGated n = some q) :
    settleSlot (fuel + 2) n s = s.enterQueued q true := by
  have hunsettled : s.allSettled n = false := State.allSettled_eq_false hm (by rw [hq, hgated]; rfl)
  have hshut : ShutsGate (s.enterQueued q true) entry := by
    refine .inl ⟨.inr (.inr ?_), by rw [hrole]; decide⟩
    rw [hq, State.dist_enterQueued_same]
    exact ⟨rfl, rfl⟩
  rw [settleSlot_of_gated (fuel + 1) n s q hr hunsettled ((s.gateOpen_iff n).mpr hopen) hfirst,
    s.releaseSuspect_of_passes q hp, settleSlot_of_shutsGate (s := s.enterQueued q true) fuel hm hshut]

/-- A GATED context keeps its role as it enters QUEUED (R35). -/
theorem District.enter_queued_of_gated (c : Control) {x : District} (recovering : Bool) (h : x.state = .gated) :
    ({ x with mark := recovering } : District).enter c .queued = { x with
      state := .queued
      level := 0
      mark := recovering
      holdoffTimer := .none
      provingTimer := .none
      quietTimer := .none } := by
  simp [District.enter_queued, District.dropsRole, h]

/-- A normal entry lengthens the queue. -/
theorem State.queue_enterQueued_ne (s : State) (d : DistrictId) (b : Bool) : (s.enterQueued d b).queue ≠ s.queue := by
  obtain ⟨before, after, ⟨hq, -, -⟩, hu⟩ := s.enterQueued_place d b
  intro he
  have hlen := congrArg List.length he
  rw [hu, hq] at hlen
  simp at hlen

theorem normalPlace_congr {s t : State} {d : DistrictId} {before after : List DistrictId}
    (h : NormalPlace t d before after) (hq : t.queue = s.queue)
    (hp : ∀ c, (t.dist c).priority = (s.dist c).priority) : NormalPlace s d before after := by
  simpa only [NormalPlace, hq, hp] using h

/-! ### The notice of a member that comes to LIVE -/

section
variable {s : State} {d : DistrictId} {n : SlotId} (hs : (s.dist d).state = .proving)
  (hn : (s.dist d).incidentSlot = some n) (hrec : (s.slot n).state = .recovering)
include hn hrec

/-- Of the slots, the restored set of its incident alone changes with d (R48). -/
theorem State.slots_becomeLive_of_member :
    (s.becomeLive d).slot n = { s.slot n with
      restored := if (s.dist d).mark then (s.slot n).restored ||| BitVec.twoPow 32 d.val else (s.slot n).restored }
      ∧ ∀ m, m ≠ n → (s.becomeLive d).slot m = s.slot m := by
  have hopen : s.openSlotOf d = some n := by
    rw [State.openSlotOf, hn]
    exact if_pos (by rw [hrec]; rfl)
  refine ⟨?_, fun m hm => ?_⟩
  · rw [State.slot_becomeLive]
    simp only [hopen, and_true, addDistrict]
  · rw [State.slot_becomeLive, hopen, if_neg (fun h => hm (Option.some.inj h.2).symm)]

include hs

/-- Every other member being settled, the incident closes (R49). -/
theorem State.finish_becomeLive_of_settled
    (hall : ∀ m ∈ (s.slot n).members, m.district ≠ d → (s.dist m.district).state.settled = true) :
    s.finish d (s.becomeLive d) = (s.becomeLive d).closeSlot n := by
  obtain ⟨hslot, -⟩ := State.slots_becomeLive_of_member hn hrec
  have hsettled : (s.becomeLive d).allSettled n = true := by
    rw [State.allSettled, hslot, List.all_eq_true]
    intro m hm
    by_cases hd : m.district = d
    · rw [hd, State.dist_becomeLive_same hs]
      rfl
    · rw [State.dist_becomeLive_other hs hd]
      exact hall m hm hd
  obtain ⟨contexts, ring, slots, hclose, -⟩ := (s.becomeLive d).closeSlot_eq n
  rw [State.finish_becomeLive hs hn, settleSlot_of_settled 32 n (s.becomeLive d) (by rw [hslot]; exact hrec) hsettled,
    State.rescan_of_same]
  · rw [hclose, State.becomeLive_eq hs]
  · rw [hclose, State.becomeLive_eq hs]

/-- What the close leaves of the contexts, the queue, the engines and the feeds. -/
theorem State.close_becomeLive_contexts :
    (((s.becomeLive d).closeSlot n).dist d).state = .live
      ∧ (∀ m ∈ (s.slot n).members, (s.dist m.district).incidentSlot = some n →
          (((s.becomeLive d).closeSlot n).dist m.district).incidentSlot = .none
            ∧ (((s.becomeLive d).closeSlot n).dist m.district).role = .none)
      ∧ (∀ e : DistrictId, e ≠ d → (((s.becomeLive d).closeSlot n).dist e).state = (s.dist e).state)
      ∧ ((s.becomeLive d).closeSlot n).queue = s.queue ∧ ((s.becomeLive d).closeSlot n).engines = s.engines
      ∧ ((s.becomeLive d).closeSlot n).feeds = s.feeds := by
  obtain ⟨hslot, -⟩ := State.slots_becomeLive_of_member hn hrec
  have hstate (e : DistrictId) := (apart_closeSlot e (s.becomeLive d) n).state
  obtain ⟨contexts, ring, slots, hclose, -⟩ := (s.becomeLive d).closeSlot_eq n
  refine ⟨?_, fun m hm hin => ?_, fun e he => ?_, ?_, ?_, ?_⟩
  · rw [hstate, State.dist_becomeLive_same hs]
    rfl
  · have hmember : m.district ∈ ((s.becomeLive d).slot n).members.map Member.district := by
      rw [hslot]
      exact List.mem_map_of_mem hm
    have hstill : ((s.becomeLive d).dist m.district).incidentSlot = some n := by
      by_cases hd : m.district = d
      · rw [hd, State.dist_becomeLive_same hs]
        exact hn
      · rw [State.dist_becomeLive_other hs hd]
        exact hin
    rw [State.dist_closeSlot, if_pos hmember, District.leaveIncident, if_pos hstill]
    exact ⟨rfl, rfl⟩
  · rw [hstate, State.dist_becomeLive_other hs he]
  all_goals rw [hclose, State.becomeLive_eq hs]

/-- With four records pending the slot stays CLOSING, last in the waiting list (R50). -/
theorem State.close_becomeLive_of_full (hfull : 4 ≤ s.ring.records.length) :
    (((s.becomeLive d).closeSlot n).slot n).state = .closing
      ∧ (((s.becomeLive d).closeSlot n).slot n).elapsed = (s.slot n).elapsed
      ∧ (((s.becomeLive d).closeSlot n).slot n).members = (s.slot n).members
      ∧ ((s.becomeLive d).closeSlot n).ring = { s.ring with closing := s.ring.closing ++ [n] }
      ∧ ((s.becomeLive d).closeSlot n).openCount + 1 = s.openCount := by
  obtain ⟨hslot, hothers⟩ := State.slots_becomeLive_of_member hn hrec
  have hring : (s.becomeLive d).ring = s.ring := by rw [State.becomeLive_eq hs]
  have hfull : 4 ≤ (s.becomeLive d).ring.records.length := by rw [hring]; exact hfull
  have hclosed : ((s.becomeLive d).closeSlot n).slot n = { (s.becomeLive d).slot n with state := .closing } := by
    rw [State.closeSlot_of_full _ n hfull, State.slot_awaitRing, if_pos rfl]
  have hcount : ((s.becomeLive d).closeSlot n).openCount + 1 = s.openCount :=
    State.openCount_of_closed (n := n) (by rw [hrec]; rfl) (by rw [hclosed]; rfl)
      (fun m hm => by rw [State.slot_closeSlot_other _ n hm (.inl hfull), hothers m hm])
  rw [hclosed, hslot]
  refine ⟨rfl, rfl, rfl, ?_, hcount⟩
  rw [State.closeSlot_of_full _ n hfull, State.ring_awaitRing, hring]

/-- With room, and no slot waiting, the slot is FREE and its record is the last of those pending (R49, R162, R163). -/
theorem State.close_becomeLive_of_room (hroom : s.ring.records.length < 4) (hc : s.ring.closing = []) :
    ((s.becomeLive d).closeSlot n).slot n = Slot.blank
      ∧ ((s.becomeLive d).closeSlot n).openCount + 1 = s.openCount
      ∧ ((s.becomeLive d).closeSlot n).ring = { s.ring with records := s.ring.records ++
          [({ s.slot n with
            state := .closing
            restored := if (s.dist d).mark then (s.slot n).restored ||| BitVec.twoPow 32 d.val
              else (s.slot n).restored } : Slot).record] } := by
  obtain ⟨hslot, hothers⟩ := State.slots_becomeLive_of_member hn hrec
  have hring : (s.becomeLive d).ring = s.ring := by rw [State.becomeLive_eq hs]
  have hwaiting : (s.becomeLive d).ring.closing = [] := by rw [hring]; exact hc
  have hclose := State.closeSlot_of_room (s.becomeLive d) n (by rw [hring]; exact hroom) hwaiting
  have hfree : ((s.becomeLive d).closeSlot n).slot n = Slot.blank := by
    rw [hclose, State.slot_modSlot_same]
  refine ⟨hfree, State.openCount_of_closed (n := n) (by rw [hrec]; rfl) (by rw [hfree]; rfl)
    (fun m hm => by rw [State.slot_closeSlot_other _ n hm (.inr hwaiting), hothers m hm]), ?_⟩
  rw [hclose, State.modSlot_ring, State.modRing_ring, State.ring_awaitRing, hring, hslot]
  simp only [← hc]

end

/-- The fields of the record a slot forms (R163). -/
theorem Slot.record_spec (x : Slot) : x.record.id = x.id ∧ (∀ c, x.cls = some c → x.record.cls = c)
    ∧ (∀ o, x.origin = some o → x.record.origin = o) ∧ x.record.count = x.members.length
    ∧ (∀ e : DistrictId, x.record.members.getLsbD e.val = x.members.any (fun m => m.district == e))
    ∧ x.record.restored = x.restored ∧ x.record.lockouts = x.lockouts ∧ x.record.duration = x.elapsed
    ∧ x.record.anySaturated = x.anySaturated := by
  refine ⟨rfl, fun c hc => by rw [Slot.record, hc]; rfl, fun o ho => by rw [Slot.record, ho]; rfl, rfl, fun e => ?_,
    rfl, rfl, rfl, rfl⟩
  rw [Slot.record, getLsbD_setOf, List.contains_eq_any_beq, List.any_map]
  simp only [Function.comp_def, BEq.comm]

/-- No other member shutting the gate, the first GATED suspect q is released, and the scan follows (R46, R47). -/
theorem State.finish_becomeLive_of_gated {s : State} {d q : DistrictId} {n : SlotId}
    (hs : (s.dist d).state = .proving) (hn : (s.dist d).incidentSlot = some n)
    (hrec : (s.slot n).state = .recovering) {pre post : List DistrictId}
    (hopen : ∀ m ∈ (s.slot n).members, m.district ≠ d → ¬ShutsGate s m)
    {entry : Member} (hm : entry ∈ (s.slot n).members) (hq : entry.district = q) (hrole : entry.role = .suspect)
    (hgated : (s.dist q).state = .gated) (hp : s.passes q) (hl : (s.slot n).suspects = pre ++ q :: post)
    (hpre : ∀ e ∈ pre, (s.dist e).state ≠ .gated) :
    s.finish d (s.becomeLive d) = ((s.becomeLive d).enterQueued q true).scan := by
  have hqd : q ≠ d := by rintro rfl; rw [hs] at hgated; cases hgated
  obtain ⟨hslot, -⟩ := State.slots_becomeLive_of_member hn hrec
  have hlive : ((s.becomeLive d).dist d).state = .live := by rw [State.dist_becomeLive_same hs]; rfl
  have hdistq := State.dist_becomeLive_other hs hqd
  have hfirst : (s.becomeLive d).firstGated n = some q := by
    refine State.firstGated_of_split _ n q pre post (by rw [hslot]; exact hl) (by rw [hdistq]; exact hgated)
      (fun e he _ => ?_)
    by_cases hed : e = d
    · rw [hed, hlive]
      decide
    · rw [State.dist_becomeLive_other hs hed]
      exact hpre e he
  have hgate : ∀ m ∈ ((s.becomeLive d).slot n).members, ¬ShutsGate (s.becomeLive d) m := by
    rw [hslot]
    intro m hm
    by_cases hd : m.district = d
    · simp [ShutsGate, hd, hlive]
    · rw [shutsGate_congr (State.dist_becomeLive_other hs hd)]
      exact hopen m hm hd
  have hpass : (s.becomeLive d).passes q := by
    rw [State.passes, State.checkFails, hdistq]
    exact hp
  rw [State.finish_becomeLive hs hn, settleSlot_releases 31 (by rw [hslot]; exact hrec) hgate
    (by rw [hslot]; exact hm) hq hrole (by rw [hdistq]; exact hgated) hpass hfirst]
  refine s.rescan_of_queue _ (fun he => (s.becomeLive d).queue_enterQueued_ne q true (he.trans ?_))
  rw [State.becomeLive_eq hs]

/-- What becomes of the contexts and the queue when d comes to LIVE and the GATED district q is released. -/
theorem State.release_becomeLive_spec {s : State} {d q : DistrictId} (hs : (s.dist d).state = .proving)
    (hgated : (s.dist q).state = .gated) : ∃ before after : List DistrictId,
      (((s.becomeLive d).enterQueued q true).dist d).state = .live
        ∧ (((s.becomeLive d).enterQueued q true).dist q).state = .queued
        ∧ (((s.becomeLive d).enterQueued q true).dist q).mark = true
        ∧ (((s.becomeLive d).enterQueued q true).dist q).level = 0
        ∧ (((s.becomeLive d).enterQueued q true).dist q).role = (s.dist q).role
        ∧ (((s.becomeLive d).enterQueued q true).dist q).attempts = (s.dist q).attempts
        ∧ NormalPlace s q before after
        ∧ ((s.becomeLive d).enterQueued q true).queue = before ++ q :: after
        ∧ ((s.becomeLive d).enterQueued q true).engines = s.engines
        ∧ ((s.becomeLive d).enterQueued q true).feeds = s.feeds
        ∧ ∀ e : DistrictId, e ≠ d → e ≠ q → ((s.becomeLive d).enterQueued q true).dist e = s.dist e := by
  have hqd : q ≠ d := by rintro rfl; rw [hs] at hgated; cases hgated
  have hpriority (c : DistrictId) : ((s.becomeLive d).dist c).priority = (s.dist c).priority := by
    by_cases hc : c = d
    · rw [hc, State.dist_becomeLive_same hs]
      rfl
    · rw [State.dist_becomeLive_other hs hc]
  obtain ⟨before, after, hplace, hu⟩ := (s.becomeLive d).enterQueued_place q true
  rw [State.dist_enterQueued_other _ _ _ _ hqd.symm, State.dist_becomeLive_same hs, State.dist_enterQueued_same,
    State.dist_becomeLive_other hs hqd, District.enter_queued_of_gated _ true hgated]
  refine ⟨before, after, rfl, rfl, rfl, rfl, rfl, rfl, normalPlace_congr hplace ?_ hpriority, by rw [hu], ?_, ?_,
    fun e hed heq => ?_⟩
  · rw [State.becomeLive_eq hs]
  · rw [hu, State.becomeLive_eq hs]
    rfl
  · rw [hu, State.becomeLive_eq hs]
    rfl
  · rw [State.dist_enterQueued_other _ _ _ _ heq, State.dist_becomeLive_other hs hed]

/-- Settles O44: the expiries of the two timers, then the notice of a member that comes to LIVE, by whether the other
members are settled or a GATED suspect waits. -/
theorem provingAndQuietExpiriesSettleDistrict : Obligations.ProvingAndQuietExpiriesSettleDistrict := by
  intro s d hr hp
  refine ⟨fun hs ht => ⟨_, exec_provingExpiry_of_running hr hp hs ht, State.becomeLive_spec hs⟩,
    exec_quietExpiry_of_running hr hp, fun n hs ht hn hrec _ => ?_⟩
  rw [exec_provingExpiry_of_running hr hp hs ht]
  refine ⟨fun hall => ?_, fun q pre post hopen ⟨entry, hm, hq, hrole⟩ hgated hpq hl hpre => ?_⟩
  · rw [State.finish_becomeLive_of_settled hs hn hrec hall]
    obtain ⟨hlive, hmembers, hstates, hqueue, hengines, hfeeds⟩ := State.close_becomeLive_contexts hs hn hrec
    have hring : (s.becomeLive d).ring = s.ring := by rw [State.becomeLive_eq hs]
    refine ⟨_, rfl, hlive, hmembers, hstates, hqueue, hengines, hfeeds, fun m hm hc => ?_,
      State.close_becomeLive_of_full hs hn hrec, fun hroom hc => ?_⟩
    · obtain ⟨-, hothers⟩ := State.slots_becomeLive_of_member hn hrec
      rw [State.slot_closeSlot_other _ n hm (.inr (by rw [hring]; exact hc)), hothers m hm]
    · obtain ⟨hfree, hcount, hrecords⟩ := State.close_becomeLive_of_room hs hn hrec hroom hc
      exact ⟨by rw [hfree]; rfl, by rw [hfree]; rfl, hcount, _, hrecords, Slot.record_spec _⟩
  · obtain ⟨before, after, hw⟩ := State.release_becomeLive_spec hs hgated
    rw [State.finish_becomeLive_of_gated hs hn hrec hopen hm hq hrole hgated hpq hl hpre]
    exact ⟨_, before, after, rfl, hw⟩

end Sys2Proof.Machine
end

section
/-! SUPPORT. What every operation keeps of the ranges: feeds DOWN exactly while their lines are low (R91), stress
accounts at most 63 (R96), attempt counts within the limit in force (R19). -/

namespace Sys2Proof.Machine

open Sys2Proof

/-- t keeps each of the three ranges that s keeps. -/
def RangesKept (s t : State) : Prop :=
  (LinesAgree s → LinesAgree t) ∧ (StressBounded s → StressBounded t)
    ∧ (AttemptsWithinLimit s → AttemptsWithinLimit t)

theorem RangesKept.refl (s : State) : RangesKept s s := ⟨id, id, id⟩

theorem RangesKept.trans {s t u : State} (h : RangesKept s t) (g : RangesKept t u) : RangesKept s u := by
  obtain ⟨hlines, hstress, hcounts⟩ := h
  obtain ⟨glines, gstress, gcounts⟩ := g
  exact ⟨glines ∘ hlines, gstress ∘ hstress, gcounts ∘ hcounts⟩

/-! ### Replacements -/

theorem Calm.linesAgree {s t : State} (hc : Calm s t) (h : LinesAgree s) : LinesAgree t := fun k => by
  rw [(hc.feed k).state, State.line, hc.lines]
  exact h k

theorem Calm.stressBounded {s t : State} (hc : Calm s t) (h : StressBounded s) : StressBounded t := fun k =>
  (hc.feed k).stress.elim (fun hle => Nat.le_trans hle (h k)) id

section
variable {r s : State} (h : RangesKept r s)
include h

/-- An operation that touches neither contexts, nor settings, nor feeds, nor lines. -/
theorem RangesKept.of_same {t : State} (hd : t.districts = s.districts) (hc : t.control = s.control)
    (hf : t.feeds = s.feeds) (hl : t.lines = s.lines) : RangesKept r t := by
  refine h.trans ⟨fun hs k => ?_, fun hs k => ?_, fun hs d => ?_⟩
  · rw [State.feed, State.line, hf, hl]; exact hs k
  · rw [State.feed, hf]; exact hs k
  · rw [State.dist, hd, hc]; exact hs d

/-- An operation that no claim goes beyond, and that leaves each attempt count or holds it to the limit. -/
theorem RangesKept.of_calm {t : State} (hc : Calm s t)
    (hcounts : ∀ d, (t.dist d).attempts = (s.dist d).attempts ∨ (t.dist d).attempts ≤ s.control.limit) :
    RangesKept r t := by
  refine h.trans ⟨hc.linesAgree, hc.stressBounded, fun hs d => ?_⟩
  rw [hc.control]
  exact (hcounts d).elim (fun he => by rw [he]; exact hs d) id

/-- One context replaced. -/
theorem RangesKept.modDist (d : DistrictId) (f : District → District)
    (hf : (f (s.dist d)).attempts = (s.dist d).attempts ∨ (f (s.dist d)).attempts ≤ s.control.limit) :
    RangesKept r (s.modDist d f) := by
  refine h.of_calm (calm_modDist s d f) (fun c => ?_)
  rw [s.dist_modDist]
  split
  · next hc => subst hc; exact hf
  · exact .inl rfl

/-- One context replaced, its count as it was. -/
theorem RangesKept.modDistSame (d : DistrictId) (f : District → District)
    (hf : (f (s.dist d)).attempts = (s.dist d).attempts) : RangesKept r (s.modDist d f) :=
  h.modDist d f (.inl hf)

/-- One feed replaced, DOWN as it was or not, its stress account not above what it was, or at most 63. -/
theorem RangesKept.modFeed (k : FeedId) (f : Feed → Feed)
    (hstate : (f (s.feed k)).state = .down ↔ (s.feed k).state = .down)
    (hstress : (f (s.feed k)).stress ≤ (s.feed k).stress ∨ (f (s.feed k)).stress ≤ 63) :
    RangesKept r (s.modFeed k f) := by
  refine h.trans ⟨fun hs j => ?_, fun hs j => ?_, id⟩ <;> rw [s.feed_modFeed] <;> split
  · next hj => subst hj; rw [hstate]; exact hs j
  · exact hs j
  · next hj => subst hj; exact hstress.elim (fun hle => Nat.le_trans hle (hs j)) id
  · exact hs j

/-! ### Entries, engines, marks -/

theorem RangesKept.enter (d : DistrictId) (st : DistrictState) : RangesKept r (s.enter d st) :=
  h.modDistSame d _ rfl

theorem RangesKept.enterQueued (d : DistrictId) (b : Bool) : RangesKept r (s.enterQueued d b) :=
  (h.modDistSame d (fun x => { x with mark := b }) rfl).enter d .queued

theorem RangesKept.returnToQueue (d : DistrictId) : RangesKept r (s.returnToQueue d) := h.enter d .queued

theorem RangesKept.setIntentOff (d : DistrictId) : RangesKept r (s.setIntentOff d) := h.modDistSame d _ rfl

theorem RangesKept.mark (p : IntentPos) : RangesKept r (s.mark p) :=
  h.of_calm (calm_mark s p) (fun d => .inl (by rw [s.dist_mark]))

theorem RangesKept.countAttempt (d : DistrictId) : RangesKept r (s.countAttempt d) := by
  refine h.modDist d _ ?_
  split
  · exact .inr (Nat.min_le_right _ _)
  · exact .inl rfl

theorem RangesKept.freeEngine (e : EngineId) : RangesKept r (s.freeEngine e) :=
  h.modFeed (s.engine e).feed (fun f => { f with engaged := f.engaged - 1 }) .rfl (.inl (Nat.le_refl _))

theorem RangesKept.freeEngineOf (d : DistrictId) : RangesKept r (s.freeEngineOf d) := by
  unfold State.freeEngineOf
  split
  · exact h.freeEngine _
  · exact h

theorem RangesKept.depart (d : DistrictId) : RangesKept r (s.depart d) := h.freeEngineOf d

/-! ### Check errors, closings, releases (R22, R47, R49) -/

theorem RangesKept.checkError (d : DistrictId) : RangesKept r (s.checkError d) := by
  have hmoved : RangesKept r (if (s.dist d).state = .locked then s else (s.depart d).enter d .checkHold) := by
    split
    · exact h
    · exact (h.depart d).enter d _
  exact hmoved.modDistSame d (fun x => ({ x with invalid := true, reload := 0 } : District).latchCheckError) rfl

theorem RangesKept.closeSlot (n : SlotId) : RangesKept r (s.closeSlot n) :=
  h.of_calm (calm_closeSlot s n) (fun d => .inl (by rw [(apart_closeSlot d s n).dist]))

theorem RangesKept.releaseSuspect (d : DistrictId) : RangesKept r (s.releaseSuspect d) := by
  unfold State.releaseSuspect
  split
  · exact h.checkError d
  · exact h.enterQueued d true

theorem RangesKept.settleSlot (fuel : Nat) (n : SlotId) : RangesKept r (settleSlot fuel n s) :=
  settleSlot_keeps (fun _ m ht => ht.closeSlot m) (fun _ d ht _ => ht.releaseSuspect d) fuel n s h

theorem RangesKept.notify (before : State) (d : DistrictId) : RangesKept r (before.notify d s) :=
  State.notify_keeps (fun _ n ht => ht.closeSlot n) (fun _ c ht _ => ht.releaseSuspect c) before d s h

/-! ### Grants and scans (R70 to R76) -/

theorem RangesKept.commandStep (e : EngineId) (d : DistrictId) (i : Nat) : RangesKept r (s.commandStep e d i) :=
  RangesKept.modDistSame (s := s.modEngine e _) h d _ rfl

/-- The stress account of the feed of an admissible district rises to at most 63 (R71, R96). -/
theorem RangesKept.takeEngine (e : EngineId) {d : DistrictId} (ha : s.admissible d = true) :
    RangesKept r (s.takeEngine e d) := by
  obtain ⟨-, -, -, hroom⟩ := (s.admissible_iff d).mp ha
  exact (h.enter d .ramping).modFeed (s.dist d).feed (fun f => { f with
    engaged := f.engaged + 1, stress := f.stress + (s.dist d).weight, history := appendHistory f.history d })
    .rfl (.inr (Nat.le_trans hroom (Feed.ceilingUnits_le _)))

theorem RangesKept.beginRamp (e : EngineId) {d : DistrictId} (ha : s.admissible d = true) :
    RangesKept r (s.beginRamp e d) := by
  unfold State.beginRamp
  split
  · exact h.takeEngine e ha
  · exact (h.takeEngine e ha).commandStep e d 1

theorem RangesKept.completeRamp (e : EngineId) (d : DistrictId) : RangesKept r (s.completeRamp e d) :=
  ((h.enter d .proving).countAttempt d).freeEngine e

theorem RangesKept.grant (e : EngineId) {d : DistrictId} (ha : s.admissible d = true) :
    RangesKept r (s.grant e d) := by
  unfold State.grant
  dsimp only
  split
  · exact (h.checkError d).notify s d
  · have hbegun := (h.beginRamp e ha).notify s d
    split
    · exact (hbegun.completeRamp e d).notify _ d
    · exact hbegun

theorem RangesKept.scan : RangesKept r s.scan :=
  State.scan_keeps (fun _ e _ ht _ _ ha => ht.grant e ha) s h

theorem RangesKept.rescan (before : State) : RangesKept r (before.rescan s) := by
  unfold State.rescan
  split
  · exact h.scan
  · exact h

/-! ### Claims -/

theorem RangesKept.finish (before : State) (d : DistrictId) : RangesKept r (before.finish d s) :=
  (h.notify before d).rescan before

theorem RangesKept.raiseCheck (d : DistrictId) : RangesKept r (s.raiseCheck d) := (h.checkError d).finish s d

theorem RangesKept.claim (d : DistrictId) {f : State → State} (hf : RangesKept r (f s)) :
    RangesKept r (s.claim d f) := by
  unfold State.claim
  split
  · exact h.raiseCheck d
  · exact hf.finish s d

theorem RangesKept.claimUnscanned (d : DistrictId) {f : State → State} (hf : RangesKept r (f s)) :
    RangesKept r (s.claimUnscanned d f) := by
  unfold State.claimUnscanned
  refine RangesKept.notify ?_ s d
  split
  · exact h.checkError d
  · exact hf

theorem RangesKept.inFreeOrder {α : Type} (l : List α) {f : α → State → State}
    (hf : ∀ a t, RangesKept r t → RangesKept r (f a t)) : RangesKept r (s.inFreeOrder l f) :=
  State.inFreeOrder_keeps l f (fun _ ht => ht) (fun a _ => hf a) s h

theorem RangesKept.running {f : State → State} (hf : RangesKept r (f s)) : RangesKept r (s.running f) := by
  unfold State.running
  split
  · exact h
  · exact hf

end

end Sys2Proof.Machine
end

section
/-! SUPPORT. Cuts, closes, timers, the feeds and HOLD keep the ranges of feeds and counts. -/

namespace Sys2Proof.Machine

open Sys2Proof

section
variable {r s : State} (h : RangesKept r s)
include h

/-! ### Close states (R35, R43, R45, R56, R57) -/

theorem RangesKept.enterLockout (d : DistrictId) : RangesKept r (s.enterLockout d) := by
  unfold State.enterLockout
  refine ((RangesKept.enter ?_ d .lockout).modDistSame d District.latchLockout rfl).setIntentOff d |>.mark _
  split <;> exact h

theorem RangesKept.flip (d : DistrictId) : RangesKept r (s.flip d) := by
  have hreversing : RangesKept r (s.enterReversing d) := (h.modDistSame d _ rfl).enter d .reversing
  unfold State.flip
  split
  · exact hreversing.returnToQueue d
  · exact hreversing

theorem RangesKept.enterCloseState (d : DistrictId) : RangesKept r (s.enterCloseState d) := by
  unfold State.enterCloseState
  split
  · exact h.enter d _
  · split
    · exact h.enterLockout d
    · split
      · exact h.flip d
      all_goals exact h.enter d _

/-! ### Cuts (R31 to R36, R45) -/

theorem RangesKept.leaveEnergised (d : DistrictId) : RangesKept r (s.leaveEnergised d) := by
  unfold State.leaveEnergised
  split
  · exact (h.countAttempt d).freeEngine _
  · exact h

theorem RangesKept.furtherCut (n : SlotId) (d : DistrictId) (c : Cut) : RangesKept r (s.furtherCut n d c) := by
  have hlatched := h.modDistSame d District.latchTripped rfl
  unfold State.furtherCut
  dsimp only
  split
  · exact hlatched.modDistSame d (fun x => { x with lastCause := some c.cause }) rfl
  · exact hlatched

theorem RangesKept.solitary (d : DistrictId) (c : Cut) : RangesKept r (s.solitary d c) := by
  have hclosed : RangesKept r ((s.recordSolitary d c).enterCloseState d) :=
    RangesKept.enterCloseState (RangesKept.modDistSame (s := s.modRing _) h d _ rfl) d
  unfold State.solitary
  dsimp only
  split
  · exact hclosed.modDistSame d _ rfl
  · exact hclosed

theorem RangesKept.nameSlot (d : DistrictId) (n : SlotId) : RangesKept r (s.nameSlot d n) :=
  h.modDistSame d _ rfl

theorem RangesKept.join (n : SlotId) (m : Member) : RangesKept r (s.join n m) :=
  RangesKept.nameSlot (s := s.modSlot n _) h m.district n

theorem RangesKept.openSlot (n : SlotId) (m : Member) : RangesKept r (s.openSlot n m) :=
  RangesKept.nameSlot (s := State.modSlot { s with nextId := s.nextId + 1 } n _) h m.district n

theorem RangesKept.newTrip (d : DistrictId) (c : Cut) : RangesKept r (s.newTrip d c) := by
  have htripped : RangesKept r ((s.leaveEnergised d).enterTripped d c) :=
    ((h.leaveEnergised d).enter d .tripped).modDistSame d _ rfl
  unfold State.newTrip
  dsimp only
  split
  · exact htripped.join _ _
  · split
    · exact htripped.openSlot _ _
    · exact htripped.solitary d c

theorem RangesKept.reTrip (n : SlotId) (d : DistrictId) (c : Cut) : RangesKept r (s.reTrip n d c) := by
  have hsuspect : RangesKept r (s.becomeSuspect n d c) :=
    RangesKept.of_same (((h.leaveEnergised d).modDistSame d _ rfl).modDistSame d
      (fun x => { x with role := .suspect }) rfl) rfl rfl rfl rfl
  unfold State.reTrip
  dsimp only
  split
  · exact hsuspect.enter d _
  · split
    · exact hsuspect.enterLockout d
    · exact hsuspect.enter d _

theorem RangesKept.takeCut (d : DistrictId) (c : Cut) : RangesKept r (s.takeCut d c) := by
  unfold State.takeCut
  split
  · split
    · split
      case h_1 => exact h.furtherCut _ d c
      case h_2 | h_3 | h_4 => exact ((h.leaveEnergised d).enter d .tripped).furtherCut _ d c
      all_goals exact h
    · split
      · exact h.reTrip _ d c
      · exact h
    all_goals exact h
  · split
    · exact h.newTrip d c
    · exact h

/-! ### Returns to the queue and sag notices (R60, R66, R83, R93, R94) -/

theorem RangesKept.returnEffect (d : DistrictId) : RangesKept r (s.returnEffect d) := by
  unfold State.returnEffect
  split
  · exact (h.freeEngineOf d).returnToQueue d
  · exact (h.modDistSame d _ rfl).returnToQueue d
  all_goals exact h

theorem RangesKept.returnClaim (d : DistrictId) : RangesKept r (State.returnClaim d s) := by
  unfold State.returnClaim
  split
  · exact h.claim d (h.returnEffect d)
  · exact h

theorem RangesKept.feedLeavesUp (k : FeedId) : RangesKept r (s.feedLeavesUp k) :=
  h.inFreeOrder _ (fun d _ ht => ht.returnClaim d)

/-- A feed that is not DOWN is not DOWN once it settles. -/
theorem RangesKept.startSettling (k : FeedId) (hk : (s.feed k).state ≠ .down) :
    RangesKept r (s.startSettling k) :=
  h.modFeed k (fun f => { f with state := .settling, settleTimer := some f.settleMicros, settleRestarted := false })
    (iff_of_false FeedState.noConfusion hk) (.inl (Nat.le_refl _))

theorem RangesKept.sagNotice (k : FeedId) : RangesKept r (State.sagNotice k s) := by
  cases hk : (s.feed k).state with
  | up =>
    rw [s.sagNotice_of_up k hk]
    exact (h.startSettling k (by rw [hk]; decide)).feedLeavesUp k
  | settling =>
    rw [s.sagNotice_of_settling k hk]
    exact (h.startSettling k (by rw [hk]; decide)).modFeed k (fun f => { f with settleRestarted := true }) .rfl
      (.inl (Nat.le_refl _))
  | down =>
    rw [s.sagNotice_of_down k hk]
    exact h

/-! ### Closes (R38 to R44) -/

theorem RangesKept.giveRole (m : Member) : RangesKept r (s.giveRole m) := by
  unfold State.giveRole
  split
  · exact h
  · exact h.modDistSame _ _ rfl

theorem RangesKept.enterMember (m : Member) : RangesKept r (s.enterMember m) := by
  unfold State.enterMember
  split
  · exact h
  · split
    · exact h.checkError _
    · split
      · exact h.enter _ _
      · exact h.enterCloseState _

theorem RangesKept.enterCloseStates (n : SlotId) : RangesKept r (s.enterCloseStates n) := by
  have hroles : RangesKept r (s.fixRoles n) := by
    rw [s.fixRoles_eq]
    exact foldl_keeps State.giveRole _ (fun m _ _ ht => ht.giveRole m) _ h
  rw [s.enterCloseStates_eq]
  exact foldl_keeps State.enterMember _ (fun m _ _ ht => ht.enterMember m) _ hroles

theorem RangesKept.closeGathering (n : SlotId) : RangesKept r (State.closeGathering n s) := by
  have hsettled := ((h.enterCloseStates n).settleSlot 33 n).rescan s
  unfold State.closeGathering State.afterClose
  dsimp only
  split
  · exact hsettled.inFreeOrder _ (fun k _ ht => ht.sagNotice k)
  · exact hsettled

theorem RangesKept.gatheringExpires (n : SlotId) : RangesKept r (State.gatheringExpires n s) := by
  unfold State.gatheringExpires
  dsimp only
  split
  · split
    · exact RangesKept.closeGathering (s := s.modSlot n _) h n
    · exact h
  · exact h

theorem RangesKept.roundEnd : RangesKept r s.roundEnd := by
  unfold State.roundEnd
  refine RangesKept.inFreeOrder ?_ _ (fun n _ ht => ht.closeGathering n)
  exact h

/-! ### The timers of districts and engines (R18, R20, R78 to R80, R87) -/

theorem RangesKept.holdoffExpires (d : DistrictId) : RangesKept r (State.holdoffExpires d s) := by
  unfold State.holdoffExpires
  split
  · refine h.claim d ?_
    unfold State.leaveHoldoff
    split
    · exact h.enter d _
    · exact h.enterQueued d true
  · exact h

theorem RangesKept.restore (d : DistrictId) : RangesKept r (s.restore d) := by
  have hlatched := h.modDistSame d District.latchRestored rfl
  unfold State.restore
  dsimp only
  split <;> exact hlatched

theorem RangesKept.provingExpires (d : DistrictId) : RangesKept r (State.provingExpires d s) := by
  unfold State.provingExpires
  split
  · refine h.claim d (RangesKept.enter ?_ d .live)
    split
    · exact h.restore d
    · exact h
  · exact h

theorem RangesKept.quietExpires (d : DistrictId) : RangesKept r (State.quietExpires d s) := by
  unfold State.quietExpires
  split
  · exact h.claim d (h.modDist d (fun x => { x with attempts := 0, quietTimer := .none }) (.inr (Nat.zero_le _)))
  · exact h

theorem RangesKept.stallAbort (e : EngineId) (d : DistrictId) : RangesKept r (s.stallAbort e d) :=
  (((h.modDistSame d District.latchStalled rfl).countAttempt d).freeEngine e).takeCut d _

theorem RangesKept.stepExpires (e : EngineId) : RangesKept r (State.stepExpires e s) := by
  unfold State.stepExpires
  dsimp only
  split
  · split
    · split
      · exact h.commandStep e _ _
      · exact h.claim _ (h.completeRamp e _)
    · split
      · exact h
      · exact h.claim _ (h.stallAbort e _)
  · exact h

/-! ### Feeds and HOLD (R91, R92, R97, R157, R158) -/

/-- Line k taken at a level, and feed k DOWN exactly if that is low. -/
theorem RangesKept.moveLine (k : FeedId) (b : Bool) (f : Feed → Feed)
    (hstate : (f (s.feed k)).state = .down ↔ b = false) (hstress : (f (s.feed k)).stress = (s.feed k).stress) :
    RangesKept r (State.modFeed { s with lines := put s.lines k b } k f) := by
  refine h.trans ⟨fun hs j => ?_, fun hs j => ?_, id⟩
  · have hline : (State.modFeed { s with lines := put s.lines k b } k f).line j = if j = k then b else s.line j :=
      get_put _ k j b
    rw [State.feed_modFeed, hline]
    split
    · exact hstate
    · exact hs j
  · rw [State.feed_modFeed]
    split
    · next hj => subst hj; exact hstress ▸ hs j
    · exact hs j

theorem RangesKept.lineLow (k : FeedId) : RangesKept r (State.lineLow k s) := by
  have hdown := h.moveLine k false (fun f => { f with state := .down, settleTimer := .none }) (by simp) rfl
  unfold State.lineLow
  dsimp only
  split
  · split
    · exact hdown.feedLeavesUp k
    · exact hdown
  · exact h

/-- A feed whose line is low and that is not DOWN disagrees with the line already. -/
theorem RangesKept.lineHigh (k : FeedId) : RangesKept r (State.lineHigh k s) := by
  unfold State.lineHigh
  dsimp only
  split
  · exact h
  · next hlow =>
    split
    · exact h.moveLine k true
        (fun f => { f with state := .settling, settleTimer := some f.settleMicros, settleRestarted := false })
        (by simp) rfl
    · next hk =>
      exact h.trans ⟨fun hs => absurd ((hs k).mpr (Bool.not_eq_true _ ▸ hlow)) hk, id, id⟩

theorem RangesKept.settleExpires (k : FeedId) : RangesKept r (State.settleExpires k s) := by
  unfold State.settleExpires
  split
  · next hk =>
    split
    · exact h.modFeed k (fun f => { f with settleRestarted := false }) .rfl (.inl (Nat.le_refl _))
    · exact RangesKept.scan (h.modFeed k (fun f => { f with state := .up, settleTimer := .none })
        (iff_of_false FeedState.noConfusion (by rw [hk.1]; decide)) (.inl (Nat.le_refl _)))
  · exact h

/-- Every feed replaced, its state as it was, its stress account not above what it was. -/
theorem RangesKept.tabulateFeeds (g : FeedId → Feed) (hstate : ∀ k, (g k).state = (s.feed k).state)
    (hstress : ∀ k, (g k).stress ≤ (s.feed k).stress) : RangesKept r { s with feeds := tabulate 8 g } := by
  have hfeed (k : FeedId) : State.feed { s with feeds := tabulate 8 g } k = g k := get_tabulate g k
  refine h.trans ⟨fun hs k => ?_, fun hs k => ?_, id⟩
  · rw [hfeed, hstate]; exact hs k
  · rw [hfeed]; exact Nat.le_trans (hstress k) (hs k)

theorem RangesKept.drainExpires : RangesKept r s.drainExpires := by
  have hdrained : RangesKept r { s.drainAll with drainTimer := some s.control.drainMicros } :=
    h.tabulateFeeds (fun k => { s.feed k with stress := (s.feed k).stress - 1 }) (fun _ => rfl)
      (fun _ => Nat.sub_le _ _)
  unfold State.drainExpires
  dsimp only
  split
  · exact hdrained.scan
  · exact hdrained

theorem RangesKept.assertHold : RangesKept r s.assertHold := by
  unfold State.assertHold
  split
  · exact h
  · exact RangesKept.inFreeOrder (s := { s with hold := true }) h _ (fun d _ ht => ht.returnClaim d)

theorem RangesKept.releaseHold : RangesKept r s.releaseHold := by
  unfold State.releaseHold
  split
  · exact RangesKept.scan (s := { s with hold := false }) h
  · exact h

end

end Sys2Proof.Machine
end

section
/-! SUPPORT. The link, host writes, commands and the access path keep the ranges of feeds and counts, and so does
every step. -/

namespace Sys2Proof.Machine

open Sys2Proof

section
variable {r s : State} (h : RangesKept r s)
include h

/-! ### The link (R108 to R120) -/

theorem RangesKept.pollChannel (k : NodeId) (c : ChannelId) : RangesKept r (State.pollChannel k s c) := by
  unfold State.pollChannel
  split
  · exact h
  · split
    · exact (h.raiseCheck _).modDistSame _ _ rfl
    · exact h.modDistSame _ _ rfl

theorem RangesKept.formPoll (k : NodeId) : RangesKept r (s.formPoll k) := by
  have hpolled : RangesKept r ((indices 4).foldl (State.pollChannel k) s) :=
    foldl_keeps _ _ (fun c _ _ ht => ht.pollChannel k c) s h
  unfold State.formPoll
  exact hpolled.of_same rfl rfl rfl rfl

theorem RangesKept.beginExchange : RangesKept r s.beginExchange := by
  unfold State.beginExchange
  split
  · exact h
  · refine RangesKept.formPoll ?_ _
    split <;> exact h

theorem RangesKept.lossClaim (d : DistrictId) : RangesKept r (State.lossClaim d s) := by
  refine h.claim d ?_
  unfold State.loseDistrict
  split
  -- UNREACHABLE, LOCKED and CHECK_HOLD stay; the other states are left for UNREACHABLE
  case h_1 | h_2 | h_3 => exact h
  all_goals exact (h.depart d).enter d _

theorem RangesKept.loseNode (k : NodeId) : RangesKept r (s.loseNode k) :=
  RangesKept.inFreeOrder (s := s.modNode k _) h _ (fun d _ ht => ht.lossClaim d)

theorem RangesKept.missNode (k : NodeId) : RangesKept r (s.missNode k) := by
  unfold State.missNode
  split
  · exact h
  · split
    · exact h
    · exact RangesKept.loseNode (s := s.modNode k _) h k
  · exact h

theorem RangesKept.restartedNode (k : NodeId) : RangesKept r (s.restartedNode k) := by
  unfold State.restartedNode
  dsimp only
  split
  · exact RangesKept.loseNode (s := s.modNode k _) h k
  · exact h

theorem RangesKept.returnClaimAt (k : NodeId) (c : ChannelId) : RangesKept r (State.returnClaimAt k s c) := by
  unfold State.returnClaimAt
  split
  · split
    · refine h.claimUnscanned _ ?_
      unfold State.returnFromLoss
      split
      · exact h.enterQueued _ false
      · exact h.enter _ _
    · exact h
  · exact h

theorem RangesKept.takeReadings (d : DistrictId) (x : ChannelReport) : RangesKept r (s.takeReadings d x) := by
  have hread := h.modDistSame d (fun y => { y with current := x.current }) rfl
  unfold State.takeReadings
  dsimp only
  split
  · split
    · split <;> exact hread
    · split
      · exact hread.enter d _
      · exact hread
    all_goals exact hread
  · exact hread

/-- A channel's readings and cut, taken by either kind of claim. -/
theorem RangesKept.takeChannel {claim : State → DistrictId → (State → State) → State}
    (hclaim : ∀ t d f, RangesKept r t → RangesKept r (f t) → RangesKept r (claim t d f)) (k : NodeId) (x : Report)
    (timeBase : Stamp) (c : ChannelId) : RangesKept r (State.takeChannel claim k x timeBase s c) := by
  unfold State.takeChannel
  split
  · exact h
  · next d _ =>
    have hread := hclaim s d (fun u => u.takeReadings d (reportChannel x c)) h (h.takeReadings d _)
    dsimp only
    split
    · exact hclaim _ d _ hread (hread.takeCut d _)
    · exact hread

theorem RangesKept.storeChannels (k : NodeId) (x : Report) : RangesKept r (s.storeChannels k x) := h

theorem RangesKept.returnNode (k : NodeId) (x : Report) (timeBase : Stamp) :
    RangesKept r (s.returnNode k x timeBase) := by
  have hreturned : RangesKept r ((indices 4).foldl (State.returnClaimAt k) s) :=
    foldl_keeps _ _ (fun c _ _ ht => ht.returnClaimAt k c) s h
  exact RangesKept.rescan (foldl_keeps _ _
    (fun c _ _ ht => ht.takeChannel (fun _ d _ hu hf => hu.claimUnscanned d hf) k x timeBase c) _
    (hreturned.storeChannels k x)) s

theorem RangesKept.reportNode (k : NodeId) (x : Report) (timeBase : Stamp) :
    RangesKept r (s.reportNode k x timeBase) := by
  unfold State.reportNode
  dsimp only
  split
  · exact foldl_keeps (P := RangesKept r) _ _
      (fun c _ _ ht => ht.takeChannel (fun _ d _ hu hf => hu.claim d hf) k x timeBase c) _ h
  · exact RangesKept.returnNode (s := s.modNode k _) h k x timeBase

theorem RangesKept.endExchange {f : Exchange → State → State}
    (hf : ∀ x t, RangesKept r t → RangesKept r (f x t)) : RangesKept r (State.endExchange f s) := by
  unfold State.endExchange
  split
  · exact h
  · next x _ =>
    have hended := hf x { s with exchange := .none, nextNode := nextAddress x.node } h
    dsimp only
    split
    · exact hended.roundEnd
    · exact hended

theorem RangesKept.judgeReport (x : Report) (y : Exchange) : RangesKept r (State.judgeReport x y s) := by
  unfold State.judgeReport
  split
  · split
    · exact h.restartedNode y.node
    · exact h.reportNode y.node x y.timeBase
  · exact h.missNode y.node

/-! ### Host writes (R3, R11 to R16, R19, R23, R99, R132, R136 to R143, R153 to R155) -/

/-- A setting of the control block replaced, the attempt limit as it was. -/
theorem RangesKept.storeControl (x : ControlReg) (v : Word) (hx : x ≠ .attemptLimit) :
    RangesKept r (s.modControl (fun c => c.store x v)) := by
  refine h.trans ⟨id, id, fun hs d => ?_⟩
  have hlimit : (s.control.store x v).limit = s.control.limit := by
    cases x
    case attemptLimit => exact absurd rfl hx
    all_goals rfl
  rw [State.modControl, hlimit]
  exact hs d

/-- An intent word other than the attempt limit stored. -/
theorem RangesKept.storeIntent (p : IntentPos) (v : Word) (hp : p ≠ .control .attemptLimit) :
    RangesKept r (s.storeIntent p v) := by
  cases p with
  | control x => exact h.storeControl x v (fun hx => hp (by rw [hx]))
  | feed k x =>
    have hstate : ((s.feed k).store x v).state = (s.feed k).state := by cases x <;> rfl
    have hstress : ((s.feed k).store x v).stress = (s.feed k).stress := by cases x <;> rfl
    exact h.modFeed k (fun f => f.store x v) (by rw [hstate]) (.inl (Nat.le_of_eq hstress))
  | adjacency j => exact h
  | district d w => exact h.modDistSame d (fun x => x.setWord w v) rfl

theorem RangesKept.readForWrite (d : DistrictId) : RangesKept r (s.readForWrite d) := by
  unfold State.readForWrite
  split
  · exact h.raiseCheck d
  · exact h

theorem RangesKept.storeFiltered (d : DistrictId) (w : Fin 5) (v : Word) (refused : Bool) :
    RangesKept r (s.storeFiltered d w v refused) := by
  have hstored := h.storeIntent (.district d w) v (by simp)
  unfold State.storeFiltered
  dsimp only
  split
  · exact hstored.modDistSame d _ rfl
  · exact hstored

theorem RangesKept.start (d : DistrictId) : RangesKept r (s.start d) := by
  unfold State.start
  split
  · exact h.enterQueued d false
  · exact h.enter d _

theorem RangesKept.setWithdrawn (d : DistrictId) (b : Bool) : RangesKept r (s.setWithdrawn d b) := by
  unfold State.setWithdrawn
  split <;> exact h

theorem RangesKept.intentMove (d : DistrictId) (i : Intent) : RangesKept r (s.intentMove d i) := by
  unfold State.intentMove
  split
  · split
    · exact h.start d
    · split
      · exact h.start d
      · exact h
    · exact h.setWithdrawn d false
    all_goals exact h
  · split
    -- the ninth row is TRIPPED, withdrawn; the eight before it stop
    case h_9 => exact h.setWithdrawn d true
    case h_1 | h_2 | h_3 | h_4 | h_5 | h_6 | h_7 | h_8 => exact (h.depart d).enter d .off
    all_goals exact h

theorem RangesKept.reloadWord (d : DistrictId) (w : Fin 5) : RangesKept r (s.reloadWord d w) := by
  unfold State.reloadWord
  dsimp only
  split
  · split
    · have hvalid := h.modDistSame d (fun x => { x with invalid := false, codeAgrees := true, reload := 0 }) rfl
      split
      · exact hvalid.enter d .off
      · exact hvalid
    · exact h.modDistSame d _ rfl
  · exact h

theorem RangesKept.judgeMapping (d : DistrictId) : RangesKept r (s.judgeMapping d) := by
  unfold State.judgeMapping
  split
  · split
    · split
      · split
        · exact h.enterQueued d false
        · exact h.enter d .off
      · exact h
    · split
      · exact ((h.enter d .off).setIntentOff d).mark _
      · exact h.enter d .off
  all_goals exact h

theorem RangesKept.changeMapping (d : DistrictId) : RangesKept r (s.changeMapping d) :=
  (h.modDistSame d (fun x => { x with current := 0 }) rfl).judgeMapping d

theorem RangesKept.writeHostIntent (d : DistrictId) (v : Word) (l : Lanes) :
    RangesKept r (State.writeHostIntent d v l s) :=
  ((((h.readForWrite d).storeFiltered d 0 _ _).intentMove d _).reloadWord d 0).finish _ d

theorem RangesKept.writeDistrictWord (d : DistrictId) (w : Fin 5) (v : Word) (l : Lanes) :
    RangesKept r (State.writeDistrictWord d w v l s) := by
  have hstored := (h.readForWrite d).storeFiltered d w
  unfold State.writeDistrictWord
  dsimp only
  refine RangesKept.finish (RangesKept.reloadWord ?_ d w) _ d
  split
  · exact (hstored _ _).changeMapping d
  · exact hstored _ _

theorem RangesKept.writeFeed (k : FeedId) (x : FeedReg) (v : Word) (l : Lanes) :
    RangesKept r (State.writeFeed k x v l s) := by
  have hstored := h.storeIntent (.feed k x) (clampFeed x (mergeLanes l v ((s.feed k).read x))) (by simp)
  unfold State.writeFeed
  dsimp only
  split
  case h_1 | h_2 => exact hstored.scan
  all_goals exact hstored

theorem RangesKept.writeSetting (x : Setting) (v : Word) (l : Lanes) :
    RangesKept r (State.writeSetting x v l s) :=
  h.storeIntent _ _ (by cases x <;> simp [settingReg])

/-- A new limit is taken together with the cap of every count (R19), whatever the counts were before. -/
theorem RangesKept.writeAttemptLimit (v : Word) (l : Lanes) : RangesKept r (State.writeAttemptLimit v l s) := by
  refine h.trans ⟨id, id, fun _ d => ?_⟩
  rw [State.writeAttemptLimit, State.capAttempts, State.dist_tabulate]
  exact Nat.min_le_right _ _

theorem RangesKept.restartRing : RangesKept r s.restartRing :=
  (RangesKept.storeControl (s := s.modRing (fun x => { x with producer := 0 })) h .consumerIndex 0 (by decide)).mark _

theorem RangesKept.writeRingSetting (x : RingReg) (v : Word) (l : Lanes) :
    RangesKept r (State.writeRingSetting x v l s) := by
  have hstored (w : Word) := h.storeIntent (.control (ringReg x)) w (by cases x <;> simp [ringReg])
  unfold State.writeRingSetting
  dsimp only
  split
  · exact hstored _
  · exact (hstored _).restartRing

theorem RangesKept.writeConsumer (v : Word) (l : Lanes) : RangesKept r (State.writeConsumer v l s) :=
  h.storeIntent _ _ (by simp)

theorem RangesKept.enterLocked (d : DistrictId) : RangesKept r (s.enterLocked d) := by
  have hlocked := (h.depart d).enter d .locked
  unfold State.enterLocked
  dsimp only
  split
  · exact (hlocked.setIntentOff d).mark _
  · exact hlocked

theorem RangesKept.exitLocked (d : DistrictId) : RangesKept r (s.exitLocked d) := by
  unfold State.exitLocked
  split
  · exact h
  · split
    · exact h.enter d _
    · split <;> exact h.enter d _

theorem RangesKept.lockClaim (d : DistrictId) {f : State → State}
    (hf : ∀ t, RangesKept r t → RangesKept r (f t)) : RangesKept r (s.lockClaim d f) := by
  refine RangesKept.finish (hf _ ?_) s d
  split
  · exact h.checkError d
  · exact h

theorem RangesKept.writeLock (g : LockHalf) (v : Word) (l : Lanes) : RangesKept r (State.writeLock g v l s) := by
  have hstored (w : Word) := h.storeIntent (.control (lockReg g)) w (by cases g <;> simp [lockReg])
  unfold State.writeLock
  dsimp only
  refine RangesKept.inFreeOrder ?_ _ (fun d t ht => ?_)
  · exact foldl_keeps (P := RangesKept r) _ _ (fun d _ _ ht => ht.modDistSame d District.latchRefused rfl) _
      (hstored _)
  · unfold State.membershipClaim
    split
    · exact ht.lockClaim d (fun _ hu => hu.enterLocked d)
    · exact ht.lockClaim d (fun _ hu => hu.exitLocked d)

/-- A host write to any intent word (R126). -/
theorem RangesKept.takeIntentWrite (p : IntentPos) (v : Word) (l : Lanes) :
    RangesKept r (State.takeIntentWrite p v l s) := by
  cases p with
  | control x =>
    cases x with
    | attemptLimit => exact h.writeAttemptLimit v l
    | faultMask => exact h.storeIntent _ _ (by simp)
    | consumerIndex => exact h.writeConsumer v l
    | ringBaseLow | ringBaseHigh | ringCapacity => exact h.writeRingSetting _ v l
    | lockSetLow | lockSetHigh => exact h.writeLock _ v l
    | gatheringWindow | provingWindow | quietInterval | holdoffBase | drainPeriod => exact h.writeSetting _ v l
  | feed k x => exact h.writeFeed k x v l
  | adjacency j => exact h
  | district d w =>
    unfold State.takeIntentWrite
    dsimp only
    split
    · exact h.writeHostIntent d v l
    · exact h.writeDistrictWord d w v l

/-! ### Commands and actions (R17, R27, R104, R149 to R152) -/

/-- A layout reset leaves feeds and lines and clears every count (R27, R104). -/
theorem RangesKept.layoutReset : RangesKept r s.layoutReset := by
  have hlines : s.layoutReset.lines = s.lines := by
    obtain ⟨contexts, marks, slots, ring, engines, feeds, hreset⟩ := s.layoutReset_eq
    rw [hreset]
  refine h.trans ⟨fun hs k => ?_, fun hs k => ?_, fun _ d => ?_⟩
  · rw [s.feed_layoutReset, State.line, hlines]
    exact hs k
  · rw [s.feed_layoutReset]
    exact hs k
  · obtain ⟨v, agrees, hrest⟩ := (s.dist d).rest.restingIntent_eq
    rw [dist_layoutReset, hrest]
    exact Nat.zero_le _

theorem RangesKept.clearLockout (d : DistrictId) : RangesKept r (State.clearLockout d s) := by
  refine h.claim d ?_
  unfold State.clearLockoutAt
  split
  · exact (h.enter d .off).modDist d _ (.inr (Nat.zero_le _))
  · exact h

theorem RangesKept.clearFlagsAt (d : DistrictId) : RangesKept r (State.clearFlagsAt d s) :=
  h.claim d (h.modDistSame d _ rfl)

theorem RangesKept.clearAllLockouts : RangesKept r s.clearAllLockouts := by
  have hcleared := h.inFreeOrder s.clearable (fun d _ ht => ht.clearLockout d)
  unfold State.clearAllLockouts
  exact hcleared.of_same rfl rfl rfl rfl

theorem RangesKept.command (code : Word) : RangesKept r (State.command code s) := by
  unfold State.command
  split
  · exact h.layoutReset
  · split
    · exact h.clearAllLockouts
    · split
      · exact h
      · split <;> exact h

theorem RangesKept.action (d : DistrictId) (code : Word) : RangesKept r (State.action d code s) := by
  unfold State.action
  split
  · exact h.clearLockout d
  · split
    · exact h.clearFlagsAt d
    · exact h

/-! ### The access path (R123 to R132, R164, R165) -/

theorem RangesKept.readFlags (d : DistrictId) (l : Lanes) : RangesKept r (State.readFlags d l s) :=
  RangesKept.modDistSame (s := s.returnWord l _) h d District.clearFlags rfl

theorem RangesKept.checkRead (p : IntentPos) : RangesKept r (s.checkRead p) := by
  unfold State.checkRead
  split
  · split
    · exact h.raiseCheck _
    · exact h
  · exact h

theorem RangesKept.serve (x : Request) : RangesKept r (s.serve x) :=
  State.serve_keeps (fun _ => h) h (fun d => h.readFlags d x.lanes) h.command h.action h

theorem RangesKept.carryOut (x : Request) : RangesKept r (s.carryOut x) :=
  State.carryOut_keeps (fun _ => h) (fun p v => h.takeIntentWrite p v x.lanes) (fun _ => h)

theorem RangesKept.seekFace (x : Request) : RangesKept r (State.seekFace x s) := by
  unfold State.seekFace
  split
  · exact RangesKept.carryOut (s := { s with face := .host, access := .onFace x }) h x
  all_goals exact h

theorem RangesKept.withAccess (a : Access) : RangesKept r { s with access := a } := h.of_same rfl rfl rfl rfl

theorem RangesKept.placeAccess (x : Request) : RangesKept r (s.placeAccess x) := by
  have hchecked : RangesKept r (s.checkRequest x) := State.checkRequest_keeps h.checkRead h
  unfold State.placeAccess
  dsimp only
  split
  · exact hchecked.seekFace x
  · exact (hchecked.serve x).withAccess _

theorem RangesKept.beginAccess (x : Request) : RangesKept r (State.beginAccess x s) := by
  unfold State.beginAccess
  split
  · exact h.placeAccess x
  all_goals exact h

theorem RangesKept.dropAccess : RangesKept r s.dropAccess := by
  unfold State.dropAccess
  split
  · split <;> exact h
  all_goals exact h

theorem RangesKept.endAccess : RangesKept r s.endAccess := by
  unfold State.endAccess
  split
  case h_3 => exact h.dropAccess
  all_goals exact h

theorem RangesKept.wholeAccess (x : Request) {taken : State → State} (ht : RangesKept r (taken s)) :
    RangesKept r (s.wholeAccess x taken) := by
  unfold State.wholeAccess
  split
  · exact ht
  · exact h
  all_goals split <;> exact h

theorem RangesKept.hostRead (p : IntentPos) (l : Lanes) : RangesKept r (State.hostRead p l s) := by
  have hchecked := h.checkRead p
  unfold State.hostRead
  dsimp only
  split
  · exact hchecked
  · exact hchecked.wholeAccess _ hchecked

theorem RangesKept.releaseFace : RangesKept r s.releaseFace := by
  unfold State.releaseFace
  split
  · exact RangesKept.placeAccess (s := { s with face := .idle }) h _
  all_goals exact h

theorem RangesKept.startCorrection : RangesKept r s.startCorrection := by
  unfold State.startCorrection
  split
  · split
    · split
      · exact h.raiseCheck _
      · exact h
    · exact h
  · exact h

theorem RangesKept.completeCorrection : RangesKept r s.completeCorrection := by
  unfold State.completeCorrection
  split
  · refine RangesKept.releaseFace ?_
    unfold State.settleMark
    split <;> exact h
  all_goals exact h

theorem RangesKept.startRing : RangesKept r s.startRing := by
  unfold State.startRing
  split
  · split
    · exact h
    · split <;> exact h
  · exact h

theorem RangesKept.ringProgress : RangesKept r s.ringProgress := by
  unfold State.ringProgress
  split
  · split
    · exact h
    · obtain ⟨ring, slots, haccept⟩ := State.acceptRecord_eq (s.modRing (fun x =>
        { x with producer := (x.producer + 1) % s.control.capacity, records := x.records.drop 1, progress := .none }))
      rw [State.advanceProducer, haccept]
      exact h
  · exact h

theorem RangesKept.completeRing : RangesKept r s.completeRing := by
  unfold State.completeRing
  split
  · exact RangesKept.releaseFace (RangesKept.ringProgress (s := s.writeMem _ .both _) h)
  all_goals exact h

/-! ### Resets and time (R26, R103, R106, R134) -/

theorem RangesKept.holdReset : RangesKept r s.holdReset := by
  have hcut : RangesKept r s.cutOff := by
    unfold State.cutOff
    split <;> exact h
  exact hcut

theorem RangesKept.tick : RangesKept r s.tick := by
  have hticked : RangesKept r { s with feeds := tabulate 8 (fun k => (s.feed k).tick) } :=
    h.tabulateFeeds (fun k => (s.feed k).tick) (fun _ => rfl) (fun _ => Nat.le_refl _)
  refine hticked.trans ⟨id, id, fun hs d => ?_⟩
  have hd : s.tick.dist d = (s.dist d).tick := get_tabulate _ d
  rw [hd]
  exact hs d

theorem RangesKept.hostWrite (p : IntentPos) (v : Word) (l : Lanes) {taken : State → State}
    (ht : RangesKept r (taken s)) : RangesKept r (State.hostWrite p v l taken s) :=
  h.wholeAccess _ ht

end

section
variable (pins : Pins) (mem : List Host.Cell) (choices : Nat) (pending : List Instr)

/-- A full reset brings each feed to the level of its line as sampled (R103). -/
theorem linesAgree_afterFullReset : LinesAgree (State.afterFullReset pins mem choices pending) := fun k => by
  rw [feed_afterFullReset, line_afterFullReset]
  cases pins.boosters.getLsbD k.val <;> decide

theorem stressBounded_afterFullReset : StressBounded (State.afterFullReset pins mem choices pending) := fun k => by
  rw [feed_afterFullReset]
  exact Nat.zero_le _

theorem attemptsWithinLimit_afterFullReset :
    AttemptsWithinLimit (State.afterFullReset pins mem choices pending) := fun d => by
  rw [dist_afterFullReset]
  exact Nat.zero_le _

end

/-! ### Every step -/

/-- No command takes a feed, a stress account or an attempt count out of its range. -/
theorem rangesKept_exec {s t : State} (c : Instr) (hx : exec c s = .next t) : RangesKept s t := by
  have h := RangesKept.refl s
  cases c <;> cases hx
  case fullReset pins =>
    exact ⟨fun _ => linesAgree_afterFullReset pins _ _ _, fun _ => stressBounded_afterFullReset pins _ _ _,
      fun _ => attemptsWithinLimit_afterFullReset pins _ _ _⟩
  case resetHeld => exact h.holdReset
  all_goals refine h.running ?_
  case layoutReset => exact h.layoutReset
  case clearAllLockouts => exact h.clearAllLockouts
  case lockFreeze => exact h
  case unknownCommandCode code => exact h.command code
  case clearLockout d => exact h.clearLockout d
  case clearFlags d => exact h.clearFlagsAt d
  case hostIntentWrite d v l => exact h.hostWrite _ v l (h.writeHostIntent d v l)
  case districtWordWrite d w v l => exact h.hostWrite _ v l (h.writeDistrictWord d w.succ v l)
  case adjacencyWrite j v l => exact h.hostWrite _ v l h
  case feedSettingWrite k x v l => exact h.hostWrite _ v l (h.writeFeed k x v l)
  case controlSettingWrite x v l => exact h.hostWrite _ v l (h.writeSetting x v l)
  case attemptLimitWrite v l => exact h.hostWrite _ v l (h.writeAttemptLimit v l)
  case faultMaskWrite v l => exact h.hostWrite _ v l (h.storeIntent _ _ (by simp))
  case ringSettingWrite x v l => exact h.hostWrite _ v l (h.writeRingSetting x v l)
  case consumerIndexWrite v l => exact h.hostWrite _ v l (h.writeConsumer v l)
  case lockSetWrite g v l => exact h.hostWrite _ v l (h.writeLock g v l)
  case flagsRead d l => exact h.readFlags d l
  case lastResetCauseRead l => exact h
  case hostIntentRead p l => exact h.hostRead p l
  case hostAccessBegin x => exact h.beginAccess x
  case hostAccessEnd => exact h.endAccess
  case accessDrop => exact h.dropAccess
  case correctionWordStart => exact h.startCorrection
  case correctionWordComplete => exact h.completeCorrection
  case ringWordStart => exact h.startRing
  case ringWordComplete => exact h.completeRing
  case holdAssert => exact h.assertHold
  case holdRelease => exact h.releaseHold
  case boosterLineLow k => exact h.lineLow k
  case boosterLineHigh k => exact h.lineHigh k
  case settleExpiry k => exact h.settleExpires k
  case drainExpiry => exact h.drainExpires
  case holdoffExpiry d => exact h.holdoffExpires d
  case provingExpiry d => exact h.provingExpires d
  case quietExpiry d => exact h.quietExpires d
  case gatheringTimerExpiry n => exact h.gatheringExpires n
  case stepTimerExpiry e => exact h.stepExpires e
  case poll => exact h.beginExchange
  case report x => exact h.endExchange (fun y _ ht => ht.judgeReport x y)
  case missTimeout | missGap => exact h.endExchange (fun y _ ht => ht.missNode y.node)

/-- Settles O54: the command at the front of the queue, or a microsecond of time. -/
theorem stepKeepsFeedsAndCountsInRange : Obligations.StepKeepsFeedsAndCountsInRange := by
  intro s t hstep
  unfold step at hstep
  split at hstep
  · next c rest _ =>
    have hrest : RangesKept s { s with pending := rest } := RangesKept.refl s
    exact hrest.trans (rangesKept_exec c hstep)
  · cases hstep
    exact (RangesKept.refl s).running (RangesKept.refl s).tick

end Sys2Proof.Machine
end

section
/-! SUPPORT. The state after a full reset meets the invariants that the statements name. -/

namespace Sys2Proof.Machine

open Sys2Proof

/-! ### The marks of a full reset (R130) -/

/-- The positions of a list stand by strictly rising offset, from one offset to below another. -/
structure RisingIn (lo hi : Nat) (l : List IntentPos) : Prop where
  rising : l.Pairwise (fun p q => positionOffset p < positionOffset q)
  bounds : ∀ p ∈ l, lo ≤ positionOffset p ∧ positionOffset p < hi

theorem RisingIn.widen {a b c : Nat} {l : List IntentPos} (h : RisingIn a b l) (hbc : b ≤ c) : RisingIn a c l :=
  ⟨h.rising, fun p hp => (h.bounds p hp).imp_right (fun hlt => Nat.lt_of_lt_of_le hlt hbc)⟩

theorem RisingIn.append {a b c : Nat} {l m : List IntentPos} (hl : RisingIn a b l) (hm : RisingIn b c m)
    (hab : a ≤ b) (hbc : b ≤ c) : RisingIn a c (l ++ m) where
  rising := List.pairwise_append.mpr ⟨hl.rising, hm.rising, fun p hp q hq =>
    Nat.lt_of_lt_of_le (hl.bounds p hp).2 (hm.bounds q hq).1⟩
  bounds p hp := (List.mem_append.mp hp).elim
    ((hl.widen hbc).bounds p)
    (fun h => (hm.bounds p h).imp_left (Nat.le_trans hab))

/-- A table of blocks of one size, each in its own place. -/
theorem RisingIn.blocks {n : Nat} (base size : Nat) {f : Fin n → List IntentPos}
    (h : ∀ i, RisingIn (base + size * i.val) (base + size * (i.val + 1)) (f i)) :
    RisingIn base (base + size * n) ((indices n).flatMap f) where
  rising := by
    refine List.pairwise_flatMap.mpr ⟨fun i _ => (h i).rising, (List.pairwise_lt_finRange n).imp ?_⟩
    intro i j hij p hp q hq
    calc positionOffset p < base + size * (i.val + 1) := ((h i).bounds p hp).2
      _ ≤ base + size * j.val := Nat.add_le_add_left (Nat.mul_le_mul_left size hij) base
      _ ≤ positionOffset q := ((h j).bounds q hq).1
  bounds p hp := by
    obtain ⟨i, -, hi⟩ := List.mem_flatMap.mp hp
    obtain ⟨hle, hlt⟩ := (h i).bounds p hi
    exact ⟨Nat.le_trans (Nat.le_add_right _ _) hle,
      Nat.lt_of_lt_of_le hlt (Nat.add_le_add_left (Nat.mul_le_mul_left size i.isLt) base)⟩

/-- A table of single words, two bytes each. -/
theorem RisingIn.words {n : Nat} (base : Nat) {f : Fin n → IntentPos}
    (h : ∀ i, positionOffset (f i) = base + 2 * i.val) : RisingIn base (base + 2 * n) ((indices n).map f) := by
  rw [List.map_eq_flatMap]
  refine RisingIn.blocks base 2 (fun i => ⟨List.pairwise_singleton _ _, fun p hp => ?_⟩)
  rw [List.mem_singleton.mp hp, h i]
  omega

/-- A full reset lists the positions block by block: control, feeds, adjacency, districts (R171 to R173). -/
theorem risingIn_allPositions : RisingIn 0 0x600 allPositions := by
  have hcontrol : RisingIn 0 0x080 (allPositions.take 13) := ⟨by decide, by decide⟩
  have hfeeds : RisingIn 0x080 0x100 ((indices 8).flatMap (fun k =>
      [.feed k .ceiling, .feed k .concurrency, .feed k .sagThreshold, .feed k .settleTime])) := by
    refine RisingIn.blocks (n := 8) 0x080 16 (fun k => ⟨?_, ?_⟩)
    · simp [positionOffset, feedOffset]
    · simp only [List.forall_mem_cons, positionOffset, feedOffset]
      exact ⟨by omega, by omega, by omega, by omega, fun _ h => by cases h⟩
  have hadjacency : RisingIn 0x100 0x200 ((indices 48).map (fun j => .adjacency j)) :=
    (RisingIn.words (n := 48) 0x100 (fun _ => rfl)).widen (by decide)
  have hdistricts : RisingIn 0x200 0x600 ((indices 32).flatMap (fun d =>
      (indices 5).map (fun w => .district d w))) :=
    RisingIn.blocks (n := 32) 0x200 32 (fun d =>
      (RisingIn.words (n := 5) (0x200 + 32 * d.val) (fun _ => rfl)).widen (by omega))
  exact ((hcontrol.append hfeeds (by decide) (by decide)).append hadjacency (by decide) (by decide)).append hdistricts
    (by decide) (by decide)

/-! ### FAULT and WAIT (R123, R159) -/

/-- With every line high, none of the five conditions of FAULT holds after a full reset. -/
theorem faultAsserted_reset : State.reset.faultAsserted = false := by
  have hlockout : State.reset.lockoutHolds = false := by
    simp [State.lockoutHolds, State.reset, District.reset]
  have hcheck : State.reset.checkHolds = false := by
    simp [State.checkHolds, State.reset, District.reset]
  have hfeeds : State.reset.feedDownHolds = false := by
    simp [State.feedDownHolds, State.reset, Feed.reset]
    decide
  have hnodes : State.reset.nodeLostHolds = false := by
    simp [State.nodeLostHolds, State.reset, Node.reset]
  have hring : State.reset.ringBlockedHolds = false := rfl
  simp [State.faultAsserted, hlockout, hcheck, hfeeds, hnodes, hring]

/-- No district is LOCKED, and the lock set is empty. -/
theorem locksAgree_reset : LocksAgree State.reset := fun d => by
  refine iff_of_false ?_ ?_
  · rw [State.reset, dist_afterFullReset]
    decide
  · simp [State.reset, State.afterFullReset, Control.reset, Control.lockSet]

/-- Settles O60, from what holds after any full reset; FAULT alone rests on the pins sampled. -/
theorem resetStateMeetsInvariants : Obligations.ResetStateMeetsInvariants := by
  refine ⟨rfl, linesAgree_afterFullReset _ _ _ _, stressBounded_afterFullReset _ _ _ _,
    attemptsWithinLimit_afterFullReset _ _ _ _, restartAgrees_afterFullReset _ _ _ _, risingIn_allPositions.rising,
    ⟨?_, ?_⟩, locksAgree_reset, faultAsserted_reset, rfl⟩
  · rintro ⟨r, hr⟩
    cases hr
  · exact iff_of_false (by decide) (fun ⟨r, hr⟩ => by cases hr)

end Sys2Proof.Machine
end

section
/-! SUPPORT. The settle and drain expiries (R92, R95, R97), and writes of feed settings (R99, R137). -/

namespace Sys2Proof.Machine

open Sys2Proof

/-! ### Settle and drain expiries (R92, R95, R97) -/

section
variable {s : State} {k : FeedId} (hr : s.inReset = false)
include hr

/-- The settle timer of a SETTLING feed expires, unless a sag notice has just started it again (R95). -/
theorem exec_settleExpiry_of_running (hs : (s.feed k).state = .settling) (ht : (s.feed k).settleTimer.isSome = true) :
    exec (.settleExpiry k) s = .next (if (s.feed k).settleRestarted
      then s.modFeed k (fun f => { f with settleRestarted := false })
      else (s.modFeed k (fun f => { f with state := .up, settleTimer := .none })).scan) := by
  have hx : exec (.settleExpiry k) s = .next (s.running (State.settleExpires k)) := rfl
  rw [hx, s.running_of_run _ hr, State.settleExpires, if_pos ⟨hs, ht⟩]

/-- A scan follows a drain exactly where some account falls. -/
theorem exec_drainExpiry : exec .drainExpiry s = .next
    (if ∃ j : FeedId, 0 < (s.feed j).stress
      then State.scan { s.drainAll with drainTimer := some s.control.drainMicros }
      else { s.drainAll with drainTimer := some s.control.drainMicros }) := by
  have hx : exec .drainExpiry s = .next (s.running State.drainExpires) := rfl
  have hfalls : (indices 8).any (fun j => decide (0 < (s.feed j).stress)) = true ↔
      ∃ j : FeedId, 0 < (s.feed j).stress := by
    simp
  rw [hx, s.running_of_run _ hr, State.drainExpires]
  simp only [hfalls]

end

/-- Settles O42: each expiry is its own change of the feeds, and then the scan. -/
theorem settleAndDrainExpiriesThenScan : Obligations.SettleAndDrainExpiriesThenScan := by
  intro s hr
  refine ⟨fun k hs ht => ⟨fun hfirst => ?_, fun hagain => ?_⟩,
    { s.drainAll with drainTimer := some s.control.drainMicros }, rfl, fun k => ?_, rfl, fun hfalls => ?_,
    fun hzero => ?_⟩
  · rw [exec_settleExpiry_of_running hr hs ht, hfirst]
    rfl
  · rw [exec_settleExpiry_of_running hr hs ht, hagain]
    rfl
  · exact get_tabulate _ k
  · rw [exec_drainExpiry hr, if_pos hfalls]
  · rw [exec_drainExpiry hr, if_neg (fun ⟨k, hk⟩ => absurd (hzero k) (Nat.ne_of_gt hk))]

/-! ### Feed settings (R99, R137) -/

theorem clamp_eq_max_min {lo hi : Nat} (h : lo ≤ hi) (v : Nat) : clamp lo hi v = max lo (min hi v) := by
  unfold clamp
  split
  · omega
  · split <;> omega

/-- Two words with the same bits from bit len up agree under the mask of those bits. -/
theorem and_highMask_congr {len : Nat} {v w : Word} (h : v.toNat / 2 ^ len = w.toNat / 2 ^ len) :
    v &&& BitVec.allOnes 16 <<< len = w &&& BitVec.allOnes 16 <<< len := by
  have hs : v >>> len = w >>> len := BitVec.eq_of_toNat_eq (by simpa [Nat.shiftRight_eq_div_pow] using h)
  apply BitVec.eq_of_getLsbD_eq
  intro i hi
  by_cases hlen : i < len
  · simp [hlen]
  · have hbit := congrArg (fun x : Word => x.getLsbD (i - len)) hs
    simp only [BitVec.getLsbD_ushiftRight, Nat.add_sub_cancel' (Nat.le_of_not_lt hlen)] at hbit
    rw [BitVec.getLsbD_and, BitVec.getLsbD_and, hbit]

section
variable (w : Word) {len lo hi : Nat} (hlen : len ≤ 16) (hhi : hi < 2 ^ len) (hlo : lo ≤ hi)
include hlen hhi hlo

/-- The low field of a word clamped, in numbers. -/
theorem toNat_clampField_low :
    (clampField w 0 len lo hi).toNat = w.toNat / 2 ^ len * 2 ^ len + max lo (min hi (field w 0 len)) := by
  have hfit : max lo (min hi (field w 0 len)) < 2 ^ len := by omega
  have hfield : field w 0 len = w.toNat % 2 ^ len := by simp [field]
  have hparts : w.toNat - w.toNat % 2 ^ len = w.toNat / 2 ^ len * 2 ^ len := by
    have hdiv := Nat.div_add_mod' w.toNat (2 ^ len)
    omega
  have hword : w.toNat / 2 ^ len * 2 ^ len + 2 ^ len ≤ 2 ^ 16 := by
    have hblocks : w.toNat / 2 ^ len < 2 ^ (16 - len) := by
      rw [Nat.div_lt_iff_lt_mul (Nat.two_pow_pos len), ← Nat.pow_add, Nat.sub_add_cancel hlen]
      exact w.isLt
    calc w.toNat / 2 ^ len * 2 ^ len + 2 ^ len = (w.toNat / 2 ^ len + 1) * 2 ^ len := (Nat.succ_mul _ _).symm
      _ ≤ 2 ^ (16 - len) * 2 ^ len := Nat.mul_le_mul_right _ hblocks
      _ = 2 ^ 16 := by rw [← Nat.pow_add, Nat.sub_add_cancel hlen]
  rw [clampField, setField, clamp_eq_max_min hlo, Nat.pow_zero, Nat.mul_one, Nat.mul_one, Nat.mod_eq_of_lt hfit, hfield,
    hparts, BitVec.toNat_ofNat, Nat.mod_eq_of_lt]
  rw [hfield] at hfit
  omega

/-- The clamped field is the value of the range nearest to it (R137). -/
theorem field_clampField_low : field (clampField w 0 len lo hi) 0 len = max lo (min hi (field w 0 len)) := by
  have hfit : max lo (min hi (field w 0 len)) < 2 ^ len := by omega
  rw [field, toNat_clampField_low w hlen hhi hlo, Nat.pow_zero, Nat.div_one, Nat.mul_add_mod_self_right,
    Nat.mod_eq_of_lt hfit]

/-- Every bit above the clamped field is as written. -/
theorem clampField_low_and_highMask :
    clampField w 0 len lo hi &&& BitVec.allOnes 16 <<< len = w &&& BitVec.allOnes 16 <<< len := by
  have hfit : max lo (min hi (field w 0 len)) < 2 ^ len := by omega
  refine and_highMask_congr ?_
  rw [toNat_clampField_low w hlen hhi hlo, Nat.mul_comm, Nat.mul_add_div (Nat.two_pow_pos len),
    Nat.div_eq_of_lt hfit, Nat.add_zero]

end

theorem exec_feedSettingWrite_of_faceFree {s : State} (hf : s.faceFree) (k : FeedId) (r : FeedReg) (v : Word)
    (l : Lanes) : exec (.feedSettingWrite k r v l) s = .next (s.writeFeed k r v l) := by
  have h : exec (.feedSettingWrite k r v l) s =
      .next (s.running (State.hostWrite (.feed k r) v l (State.writeFeed k r v l))) := rfl
  rw [h, s.running_hostWrite _ v l _ hf]

/-- Settles O22: the face is free, so the write is taken at once, and the word stored is the clamped one. -/
theorem feedSettingWriteClampsAndScans : Obligations.FeedSettingWriteClampsAndScans := by
  intro s k r v l hf
  have hx := exec_feedSettingWrite_of_faceFree hf k r v l
  refine ⟨s.storeIntent (.feed k r) (clampFeed r (mergeLanes l v ((s.feed k).read r))), _, _, rfl, rfl,
    ?_, ?_, ?_, ?_⟩
  all_goals
    rintro rfl
    refine ⟨hx, ?_, clampField_low_and_highMask _ (by decide) (by decide) (by decide)⟩
  · rw [clampFeed, field_clampField_low _ (by decide) (by decide) (by decide),
      Nat.min_eq_right (Nat.le_of_lt_succ (field_lt _ 0 6))]
  · exact field_clampField_low _ (by decide) (by decide) (by decide)
  · exact field_clampField_low _ (by decide) (by decide) (by decide)
  · rw [clampFeed, field_clampField_low _ (by decide) (by decide) (by decide),
      Nat.min_eq_right (Nat.le_of_lt_succ (field_lt _ 0 8))]

end Sys2Proof.Machine
end

section
/-! SUPPORT. A booster line's level and its feed (R91, R92), and the return of a district whose feed has gone DOWN
(R60, R66, R82, R83, R94). -/

namespace Sys2Proof.Machine

open Sys2Proof

/-! ### A line that goes low (R91) -/

/-- Line k low and feed k DOWN with its settle timer stopped, no district having taken its claim. -/
def State.lineLowered (s : State) (k : FeedId) : State :=
  { s with
    lines := put s.lines k false
    feeds := put s.feeds k { s.feed k with state := .down, settleTimer := .none } }

theorem State.feed_lineLowered_same (s : State) (k : FeedId) :
    (s.lineLowered k).feed k = { s.feed k with state := .down, settleTimer := .none } :=
  get_put_same _ _ _

theorem State.feed_lineLowered_other (s : State) {j k : FeedId} (h : j ≠ k) :
    (s.lineLowered k).feed j = s.feed j :=
  get_put_other _ _ _ _ h

theorem State.line_lineLowered_same (s : State) (k : FeedId) : (s.lineLowered k).line k = false :=
  get_put_same _ _ _

theorem State.line_lineLowered_other (s : State) {j k : FeedId} (h : j ≠ k) :
    (s.lineLowered k).line j = s.line j :=
  get_put_other _ _ _ _ h

section
variable {s : State} {k : FeedId} (hr : s.inReset = false)
include hr

theorem exec_boosterLineLow_of_high (hk : s.line k = true) : exec (.boosterLineLow k) s = .next
    (if (s.feed k).state = .up then (s.lineLowered k).feedLeavesUp k else s.lineLowered k) := by
  have hx : exec (.boosterLineLow k) s = .next (s.running (State.lineLow k)) := rfl
  rw [hx, s.running_of_run _ hr, State.lineLow, if_pos hk]
  rfl

theorem exec_boosterLineHigh_of_low (hk : s.line k = false) (hd : (s.feed k).state = .down) :
    exec (.boosterLineHigh k) s = .next (State.startSettling { s with lines := put s.lines k true } k) := by
  have hx : exec (.boosterLineHigh k) s = .next (s.running (State.lineHigh k)) := rfl
  rw [hx, s.running_of_run _ hr, State.lineHigh, if_neg (Bool.eq_false_iff.mp hk), if_pos hd]

/-- One district reached: the line's fall is the end of its return claim (R94). -/
theorem exec_boosterLineLow_of_one {d : DistrictId} (hk : s.line k = true) (hup : (s.feed k).state = .up)
    (hone : s.onFeedLeaving k = [d]) (hd : (s.dist d).state = .ramping ∨ (s.dist d).state = .reversing)
    (hp : s.passes d) :
    exec (.boosterLineLow k) s = .next ((s.lineLowered k).finish d ((s.lineLowered k).returnEffect d)) := by
  have hreached : (s.lineLowered k).onFeedLeaving k = [d] := hone
  have hclaim : State.returnClaim d (s.lineLowered k) =
      (s.lineLowered k).claim d (fun t => t.returnEffect d) := if_pos hd
  rw [exec_boosterLineLow_of_high hr hk, if_pos hup, State.feedLeavesUp, hreached, State.inFreeOrder_one, hclaim,
    State.claim_of_passes (s.lineLowered k) d _ hp]

end

/-- Settles O40: what the claims of the line's fall leave of feeds, lines and control words is what any claim does. -/
theorem boosterLineMovesItsFeed : Obligations.BoosterLineMovesItsFeed := by
  intro s k hr
  refine ⟨fun hk => ?_, fun hk hd => exec_boosterLineHigh_of_low hr hk hd⟩
  have hcalm : Calm (s.lineLowered k)
      (if (s.feed k).state = .up then (s.lineLowered k).feedLeavesUp k else s.lineLowered k) := by
    split
    · exact calm_feedLeavesUp _ k
    · exact .refl _
  refine ⟨_, exec_boosterLineLow_of_high hr hk, ?_, ?_, ?_, fun j hj => ⟨?_, ?_⟩, hcalm.control, hcalm.nodes,
    hcalm.mem, fun hnone => ?_⟩
  · rw [State.line, hcalm.lines]
    exact s.line_lineLowered_same k
  · rw [(hcalm.feed k).state, s.feed_lineLowered_same]
  · rw [(hcalm.feed k).settleTimer, s.feed_lineLowered_same]
  · rw [(hcalm.feed j).state, s.feed_lineLowered_other hj]
  · rw [State.line, hcalm.lines]
    exact s.line_lineLowered_other hj
  · split
    · next hup =>
      have hreached : (s.lineLowered k).onFeedLeaving k = [] := hnone.resolve_left (fun h => h hup)
      rw [State.feedLeavesUp, hreached, State.inFreeOrder_nil]
      rfl
    · rfl

/-! ### A return to the queue ahead of its priority (R66) -/

theorem ReturnPlace.congr {s t : State} {d : DistrictId} {before after : List DistrictId}
    (h : ReturnPlace s d before after) (hq : t.queue = s.queue)
    (hp : ∀ q, (t.dist q).priority = (s.dist q).priority) : ReturnPlace t d before after := by
  simpa only [ReturnPlace, hq, hp] using h

/-- d's context enters QUEUED with its mark as it stands, and d stands at its place in the queue. -/
theorem State.returnToQueue_place (s : State) (d : DistrictId) :
    ∃ before after : List DistrictId, ReturnPlace s d before after
      ∧ s.returnToQueue d =
        { s.modDist d (District.enter s.control .queued) with queue := before ++ d :: after } := by
  obtain ⟨before, after, hqueue, hinsert, hafter, hbefore⟩ :=
    insertAfterLast_place (fun q => decide ((s.dist q).priority < (s.dist d).priority)) d s.queue
  refine ⟨before, after, ⟨hqueue, fun q hq => by simpa using hafter q hq, fun q hq => by simpa using hbefore q hq⟩,
    ?_⟩
  rw [State.returnToQueue, State.enter, State.insertReturned, ← hinsert]
  congr 2
  funext q
  rw [State.priority_modDist _ _ _ _ rfl, State.priority_modDist _ _ _ _ rfl]

/-! ### The engine freed (R81) -/

theorem State.engine_freeEngine_same (s : State) (e : EngineId) : (s.freeEngine e).engine e =
    { s.engine e with district := .none, index := 0, stalls := 0, timer := .none } :=
  State.engine_modEngine_same _ e _

theorem State.feed_freeEngine_same (s : State) (e : EngineId) : (s.freeEngine e).feed (s.engine e).feed =
    { s.feed (s.engine e).feed with engaged := (s.feed (s.engine e).feed).engaged - 1 } :=
  s.feed_modFeed_same (s.engine e).feed (fun f => { f with engaged := f.engaged - 1 })

/-! ### The return of a RAMPING and of a REVERSING district (R60, R62, R83) -/

section
variable {s : State} {d : DistrictId}

/-- A RAMPING district gives up its engine and goes back with its mark as it stands. -/
theorem State.returnEffect_of_ramping {e : EngineId} {k : FeedId} (h : (s.dist d).state = .ramping)
    (he : s.engineOf d = some e) (hk : (s.engine e).feed = k) :
    ∃ before after : List DistrictId, ReturnPlace s d before after
      ∧ (s.returnEffect d).queue = before ++ d :: after
      ∧ (s.returnEffect d).dist d = (s.dist d).enter s.control .queued
      ∧ (∀ f, f ≠ d → (s.returnEffect d).dist f = s.dist f)
      ∧ (s.returnEffect d).engine e = { s.engine e with district := .none, index := 0, stalls := 0, timer := .none }
      ∧ (s.returnEffect d).feed k = { s.feed k with engaged := (s.feed k).engaged - 1 }
      ∧ (s.returnEffect d).slots = s.slots := by
  subst hk
  have heffect : s.returnEffect d = (s.freeEngine e).returnToQueue d := by
    rw [State.returnEffect, h]
    simp only [State.freeEngineOf, he]
  obtain ⟨before, after, hplace, hreturn⟩ := (s.freeEngine e).returnToQueue_place d
  rw [heffect, hreturn]
  exact ⟨before, after, hplace.congr rfl (fun _ => rfl), rfl, State.dist_modDist_same _ d _,
    fun f hf => State.dist_modDist_other _ d _ f hf, s.engine_freeEngine_same e, s.feed_freeEngine_same e, rfl⟩

/-- The context of a REVERSING district goes back with the mark on; a solitary role ends (R35; log 18). -/
theorem District.enter_queued_of_reversing (c : Control) {x : District} (h : x.state = .reversing) :
    ({ x with mark := true } : District).enter c .queued =
      { x with
        state := .queued
        level := 0
        mark := true
        role := if x.incidentSlot = .none then .none else x.role
        holdoffTimer := .none
        provingTimer := .none
        quietTimer := .none } := by
  rw [District.enter_queued]
  simp [District.dropsRole, h]

/-- A REVERSING district goes back, and nothing but its context and the queue has changed. -/
theorem State.returnEffect_of_reversing (h : (s.dist d).state = .reversing) :
    ∃ before after : List DistrictId, ReturnPlace s d before after
      ∧ s.returnEffect d = { s with
          queue := before ++ d :: after
          districts := put s.districts d { s.dist d with
            state := .queued
            level := 0
            mark := true
            role := if (s.dist d).incidentSlot = .none then .none else (s.dist d).role
            holdoffTimer := .none
            provingTimer := .none
            quietTimer := .none } } := by
  have heffect : s.returnEffect d = (s.modDist d (fun x => { x with mark := true })).returnToQueue d := by
    rw [State.returnEffect, h]
  obtain ⟨before, after, hplace, hreturn⟩ := (s.modDist d (fun x => { x with mark := true })).returnToQueue_place d
  refine ⟨before, after, hplace.congr rfl (fun q => (s.priority_modDist d q _ rfl).symm), ?_⟩
  rw [heffect, hreturn, State.modDist_modDist, ← District.enter_queued_of_reversing s.control h]
  rfl

end

/-- Settles O41: the one claim, read off the place in the queue and the engine freed. -/
theorem feedLossReturnsRampAheadOfPriority : Obligations.FeedLossReturnsRampAheadOfPriority := by
  refine ⟨fun s k d e hr hk hup hone hd he hek hp => ?_, fun s k d hr hk hup hone hd _ hp => ?_⟩
  · obtain ⟨before, after, ⟨hqueue, hafter, hbefore⟩, hplaced, hdist, hothers, hengine, hfeed, hslots⟩ :=
      State.returnEffect_of_ramping (s := s.lineLowered k) hd he hek
    have hx := exec_boosterLineLow_of_one hr hk hup hone (.inl hd) hp
    have hlowered := s.feed_lineLowered_same k
    exact ⟨_, _, hx, by rw [hlowered], s.line_lineLowered_same k, rfl, rfl, by rw [hdist]; rfl, by rw [hdist]; rfl,
      by rw [hdist]; rfl, by rw [hdist]; rfl, by rw [hdist]; rfl, by rw [hdist]; rfl,
      ⟨before, after, hqueue, hplaced, hafter, hbefore⟩, by rw [hengine], by rw [hengine], by rw [hengine],
      by rw [hengine], by rw [hfeed, hlowered], by rw [hfeed, hlowered], hothers, hslots⟩
  · obtain ⟨before, after, hplace, heffect⟩ := State.returnEffect_of_reversing (s := s.lineLowered k) hd
    have hx := exec_boosterLineLow_of_one hr hk hup hone (.inr hd) hp
    exact ⟨s.lineLowered k, _, before, after, hx, hplace.congr rfl (fun _ => rfl), rfl, heffect⟩

end Sys2Proof.Machine
end

section
/-! SUPPORT. One microsecond of time (R34, R106), entry by entry. -/

namespace Sys2Proof.Machine

open Sys2Proof

/-- An open slot whose millisecond is complete counts it (R34). -/
theorem Slot.tick_of_millisecond {x : Slot} (ho : x.state.isOpen = true) (hm : x.elapsedMicros = 999) :
    x.tick = { x with
      timer := x.timer.map (fun n => n - 1)
      elapsed := min (x.elapsed + 1) 65535
      elapsedMicros := 0 } := by
  rw [Slot.tick, if_pos ho, Slot.countElapsed]
  exact if_pos (by rw [hm])

/-- An open slot short of a millisecond counts the microsecond (log 19). -/
theorem Slot.tick_of_microsecond {x : Slot} (ho : x.state.isOpen = true) (hm : x.elapsedMicros ≠ 999) :
    x.tick = { x with
      timer := x.timer.map (fun n => n - 1)
      elapsedMicros := x.elapsedMicros + 1 } := by
  rw [Slot.tick, if_pos ho, Slot.countElapsed]
  exact if_neg (fun h => hm (by simpa using h))

/-- A slot that is not open stands. -/
theorem Slot.tick_of_not_open {x : Slot} (h : x.state.isOpen = false) : x.tick = x :=
  if_neg (by rw [h]; decide)

section
variable (s : State)

theorem State.slot_tick (n : SlotId) : s.tick.slot n = (s.slot n).tick := get_tabulate _ n

theorem State.dist_tick (d : DistrictId) : s.tick.dist d = (s.dist d).tick := get_tabulate _ d

theorem State.feed_tick (k : FeedId) : s.tick.feed k = (s.feed k).tick := get_tabulate _ k

theorem State.engine_tick (e : EngineId) : s.tick.engine e = (s.engine e).tick := get_tabulate _ e

/-- With no command waiting a step is one microsecond (log 1). -/
theorem step_of_no_command (hp : s.pending = []) (hr : s.inReset = false) : step s = .next s.tick := by
  rw [step, hp]
  exact congrArg Host.Outcome.next (s.running_of_run State.tick hr)

end

/-- Settles O2, table by table: each entry's tick, and the fields that the tick does not name. -/
theorem idleStepAdvancesOneMicrosecond : Obligations.IdleStepAdvancesOneMicrosecond := by
  intro s hp hr
  refine ⟨s.tick, step_of_no_command s hp hr, rfl, rfl, fun n ho hm => ?_, fun n ho hm => ?_, fun n ho => ?_,
    s.dist_tick, s.feed_tick, s.engine_tick, rfl⟩
  · rw [s.slot_tick, Slot.tick_of_millisecond ho hm]
  · rw [s.slot_tick, Slot.tick_of_microsecond ho hm]
  · rw [s.slot_tick, Slot.tick_of_not_open ho]

end Sys2Proof.Machine
end

section
/-! SUPPORT. The end of an exchange (R108, R109, R113 to R116): what an outcome makes of the node table, what the
notices and closes that follow leave alone, and the end of a round (R37, R38). -/

namespace Sys2Proof.Machine

open Sys2Proof

/-! ### What closes and sag notices leave alone -/

/-- The control words, the memory, the lines, the node table and the place in the round stand. -/
structure LinkStands (s t : State) : Prop where
  control : t.control = s.control
  mem : t.mem = s.mem
  lines : t.lines = s.lines
  nodes : t.nodes = s.nodes
  nextNode : t.nextNode = s.nextNode
  exchange : t.exchange = s.exchange

theorem LinkStands.trans {s t u : State} (h : LinkStands s t) (g : LinkStands t u) : LinkStands s u :=
  ⟨g.control.trans h.control, g.mem.trans h.mem, g.lines.trans h.lines, g.nodes.trans h.nodes,
    g.nextNode.trans h.nextNode, g.exchange.trans h.exchange⟩

theorem Calm.linkStands {s t : State} (h : Calm s t) : LinkStands s t :=
  ⟨h.control, h.mem, h.lines, h.nodes, h.nextNode, h.exchange⟩

theorem LinkStands.node {s t : State} (h : LinkStands s t) (k : NodeId) : t.node k = s.node k := by
  rw [State.node, h.nodes, State.node]

theorem LinkStands.sagNotice {s t : State} (h : LinkStands s t) (k : FeedId) : LinkStands s (State.sagNotice k t) :=
  State.sagNotice_keeps (P := LinkStands s) (fun _ _ _ hu => hu.trans ⟨rfl, rfl, rfl, rfl, rfl, rfl⟩)
    (fun d u hu => hu.trans (calm_returnClaim d u).linkStands) (fun _ hu => hu.trans ⟨rfl, rfl, rfl, rfl, rfl, rfl⟩)
    k t h

theorem LinkStands.closeGathering {s t : State} (h : LinkStands s t) (n : SlotId) :
    LinkStands s (State.closeGathering n t) := by
  have hclosed := h.trans (((calm_enterCloseStates t n).trans (calm_settleSlot 33 n _)).trans
    (calm_rescan t _)).linkStands
  unfold State.closeGathering State.afterClose
  dsimp only
  split
  · exact State.inFreeOrder_keeps (P := LinkStands s) _ _ (fun _ hu => hu.trans ⟨rfl, rfl, rfl, rfl, rfl, rfl⟩)
      (fun k _ _ hu => hu.sagNotice k) _ hclosed
  · exact hclosed

/-! ### The end of a round (R37, R38) -/

/-- A slot at a round-end notice: GATHERING with a round begun, it has seen one. -/
def Slot.atRoundEnd (x : Slot) : Slot :=
  if x.state = .gathering ∧ x.roundBegun = true then { x with roundSeen := true } else x

/-- s with each GATHERING slot whose round has begun having seen it (R37). -/
def State.roundsSeen (s : State) : State :=
  { s with slots := tabulate 4 (fun n => (s.slot n).atRoundEnd) }

/-- The slots that a round end closes: GATHERING, a round seen, the gathering timer expired (R38). -/
def State.dueSlots (s : State) : List SlotId :=
  (indices 4).filter (fun n =>
    decide ((s.slot n).state = SlotState.gathering) && (s.slot n).roundSeen && (s.slot n).timer.isNone)

theorem State.roundEnd_eq (s : State) :
    s.roundEnd = s.roundsSeen.inFreeOrder s.roundsSeen.dueSlots State.closeGathering := rfl

theorem State.slot_roundsSeen (s : State) (n : SlotId) : s.roundsSeen.slot n = (s.slot n).atRoundEnd :=
  get_tabulate _ n

theorem State.mem_dueSlots (s : State) (n : SlotId) : n ∈ s.dueSlots ↔
    (s.slot n).state = .gathering ∧ (s.slot n).roundSeen = true ∧ (s.slot n).timer = .none := by
  simp [State.dueSlots, and_assoc]

theorem State.dueSlots_nodup (s : State) : s.dueSlots.Nodup := (List.nodup_finRange 4).filter _

theorem linkStands_roundEnd (s : State) : LinkStands s s.roundEnd := by
  rw [s.roundEnd_eq]
  exact State.inFreeOrder_keeps (P := LinkStands s) _ _ (fun _ ht => ht.trans ⟨rfl, rfl, rfl, rfl, rfl, rfl⟩)
    (fun n _ _ ht => ht.closeGathering n) _ ⟨rfl, rfl, rfl, rfl, rfl, rfl⟩

/-- Where A holds of RECOVERING, CLOSING and FREE, it holds of slot n after its close, and after the close of another
slot if it held before. -/
theorem slotIn_closeGathering {A : SlotState → Prop} (hrecovering : A .recovering) (hclosing : A .closing)
    (hfree : A .free) {n : SlotId} {s : State} (m : SlotId) (h : n = m ∨ SlotIn A n s) :
    SlotIn A n (State.closeGathering m s) := by
  have hentered : SlotIn A n (s.enterCloseStates m) := by
    rw [s.enterCloseStates_eq, SlotIn, State.slot_modSlot]
    split
    · exact hrecovering
    · next hne =>
      refine foldl_keeps (P := SlotIn A n) State.enterMember _ (fun p _ t ht => ?_) _ ?_
      · obtain ⟨lockouts, hslot⟩ := t.slot_enterMember p n
        rw [SlotIn, hslot]
        exact ht
      · rw [s.fixRoles_eq]
        refine SlotIn.of_slots ?_ (State.slots_foldl_giveRole _ _)
        rw [SlotIn, State.slot_modSlot_other _ _ _ _ hne]
        exact h.resolve_left hne
  have hclosed : SlotIn A n (s.rescan (settleSlot 33 m (s.enterCloseStates m))) :=
    (hentered.settleSlot hclosing hfree 33 m).rescan hclosing hfree s
  unfold State.closeGathering State.afterClose
  dsimp only
  split
  · exact State.inFreeOrder_keeps (P := SlotIn A n) _ _ (fun _ ht => ht.of_slots rfl)
      (fun k _ _ ht => ht.sagNotice hclosing hfree k) _ hclosed
  · exact hclosed

/-- Whatever the order, a round end leaves no due slot GATHERING (R38). -/
theorem State.not_gathering_roundEnd (s : State) {n : SlotId} (hn : n ∈ s.roundsSeen.dueSlots) :
    (s.roundEnd.slot n).state ≠ .gathering := by
  obtain ⟨c, before, after, -, -, horder⟩ :=
    s.roundsSeen.inFreeOrder_split State.closeGathering hn s.roundsSeen.dueSlots_nodup
  rw [s.roundEnd_eq, horder]
  have hclose (m : SlotId) (t : State) (h : n = m ∨ SlotIn (· ≠ .gathering) n t) :
      SlotIn (· ≠ .gathering) n (State.closeGathering m t) :=
    slotIn_closeGathering (by decide) (by decide) (by decide) m h
  exact foldl_keeps (P := SlotIn (· ≠ .gathering) n) (fun t m => State.closeGathering m t) after
    (fun m _ t ht => hclose m t (.inr ht)) _ (hclose n _ (.inl rfl))

/-! ### The node of an exchange (R114, R116, R118) -/

/-- A node table entry after a miss (R114). -/
def Node.missed (x : Node) : Node :=
  match x.state with
  | .absent => { x with misses := min (x.misses + 1) 3 }
  | .present => if x.misses < 2 then { x with misses := x.misses + 1 } else { x with misses := 3, state := .lost }
  | .lost => { x with misses := 3 }

/-- A node table entry after a good REPORT with RESTARTED set (R118). -/
def Node.restartedEntry (x : Node) : Node :=
  { x with restarted := true, misses := 3, state := if x.state = .present then .lost else x.state }

/-- A node table entry after a good REPORT with RESTARTED clear (R116). -/
def Node.answered (r : Report) (x : Node) : Node :=
  { x with
    misses := 0
    restarted := false
    state := .present
    channels := tabulate 4 (fun c =>
      { output := (reportChannel r c).output, newCut := (reportChannel r c).newCut }) }

theorem Node.missed_keeps (x : Node) : x.missed.restarted = x.restarted ∧ x.missed.channels = x.channels := by
  unfold Node.missed
  split
  · exact ⟨rfl, rfl⟩
  · split <;> exact ⟨rfl, rfl⟩
  · exact ⟨rfl, rfl⟩

theorem Node.missed_of_absent {x : Node} (h : x.state = .absent) :
    x.missed = { x with misses := min (x.misses + 1) 3 } := by
  rw [Node.missed, h]

theorem Node.missed_of_present {x : Node} (h : x.state = .present) (hm : x.misses < 2) :
    x.missed = { x with misses := x.misses + 1 } := by
  rw [Node.missed, h]
  exact if_pos hm

theorem Node.missed_of_third {x : Node} (h : x.state = .present) (hm : 2 ≤ x.misses) :
    x.missed = { x with misses := 3, state := .lost } := by
  rw [Node.missed, h]
  exact if_neg (Nat.not_lt_of_le hm)

theorem Node.missed_of_lost {x : Node} (h : x.state = .lost) : x.missed = { x with misses := 3 } := by
  rw [Node.missed, h]

theorem State.modNode_modNode (s : State) (k : NodeId) (f g : Node → Node) :
    (s.modNode k f).modNode k g = s.modNode k (fun x => g (f x)) := by
  simp [State.modNode, put_put, State.node]

theorem State.modSlot_modSlot (s : State) (n : SlotId) (f g : Slot → Slot) :
    (s.modSlot n f).modSlot n g = s.modSlot n (fun x => g (f x)) := by
  simp [State.modSlot, put_put, State.slot]

theorem State.modSlot_self (s : State) (n : SlotId) (f : Slot → Slot) (h : f (s.slot n) = s.slot n) :
    s.modSlot n f = s := by
  rw [State.modSlot, h, State.slot, put_self]

theorem State.modNode_congr (s : State) (k : NodeId) {f g : Node → Node} (h : f (s.node k) = g (s.node k)) :
    s.modNode k f = s.modNode k g := by
  rw [State.modNode, State.modNode, h]

/-- The node table of an outcome and of what follows from it: the node of the exchange, and the others. -/
theorem LinkStands.node_modNode {s t : State} {k : NodeId} {f : Node → Node} (h : LinkStands (s.modNode k f) t) :
    t.node k = f (s.node k) ∧ ∀ j : NodeId, j ≠ k → t.node j = s.node j :=
  ⟨(h.node k).trans (s.node_modNode_same k f), fun j hj => (h.node j).trans (s.node_modNode_other k f j hj)⟩

section
variable (s : State) (k : NodeId)

/-- s with the third miss of node k in its table, the loss claims not yet taken (R115). -/
def State.nodeLost : State :=
  (s.modNode k (fun x => { x with misses := 3 })).modNode k (fun x => { x with state := .lost })

theorem State.nodeLost_eq : s.nodeLost k = s.modNode k (fun x => { x with misses := 3, state := .lost }) :=
  s.modNode_modNode k _ _

theorem State.missNode_of_absent (h : (s.node k).state = .absent) : s.missNode k = s.modNode k Node.missed := by
  rw [State.missNode, h]
  exact s.modNode_congr k (Node.missed_of_absent h).symm

theorem State.missNode_of_present (h : (s.node k).state = .present) (hm : (s.node k).misses < 2) :
    s.missNode k = s.modNode k Node.missed := by
  rw [State.missNode, h]
  exact (if_pos hm).trans (s.modNode_congr k (Node.missed_of_present h hm).symm)

theorem State.missNode_of_lost (h : (s.node k).state = .lost) : s.missNode k = s.modNode k Node.missed := by
  rw [State.missNode, h]
  exact s.modNode_congr k (Node.missed_of_lost h).symm

/-- The third miss of a PRESENT node gives its districts their loss claims (R114, R115). -/
theorem State.missNode_of_third (h : (s.node k).state = .present) (hm : 2 ≤ (s.node k).misses) :
    s.missNode k = (s.nodeLost k).inFreeOrder (s.mappedToNode k) State.lossClaim := by
  rw [State.missNode, h]
  exact if_neg (Nat.not_lt_of_le hm)

theorem calm_missNode : Calm (s.modNode k Node.missed) (s.missNode k) := by
  cases h : (s.node k).state with
  | absent => rw [s.missNode_of_absent k h]; exact .refl _
  | lost => rw [s.missNode_of_lost k h]; exact .refl _
  | present =>
    by_cases hm : (s.node k).misses < 2
    · rw [s.missNode_of_present k h hm]; exact .refl _
    · have hm := Nat.le_of_not_lt hm
      have hlost : s.modNode k Node.missed = s.nodeLost k := by
        rw [s.nodeLost_eq k]
        exact s.modNode_congr k (Node.missed_of_third h hm)
      rw [s.missNode_of_third k h hm, hlost]
      exact calm_inFreeOrder _ _ (fun d _ t => calm_lossClaim d t) _

theorem State.modNode_restartedEntry_of_present (h : (s.node k).state = .present) :
    s.modNode k Node.restartedEntry =
      (s.modNode k (fun x => { x with restarted := true, misses := 3 })).modNode k
        (fun x => { x with state := .lost }) := by
  rw [s.modNode_modNode k]
  exact s.modNode_congr k (by simp [Node.restartedEntry, h])

theorem State.restartedNode_of_not_present (h : (s.node k).state ≠ .present) :
    s.restartedNode k = s.modNode k Node.restartedEntry := by
  rw [State.restartedNode, if_neg h]
  exact s.modNode_congr k (by simp [Node.restartedEntry, h])

theorem calm_restartedNode : Calm (s.modNode k Node.restartedEntry) (s.restartedNode k) := by
  by_cases h : (s.node k).state = .present
  · rw [State.restartedNode, if_pos h, s.modNode_restartedEntry_of_present k h]
    exact calm_loseNode _ k
  · rw [s.restartedNode_of_not_present k h]
    exact .refl _

/-- s with node k's entry PRESENT, its misses and its restarted flag cleared, its channels not yet stored (R116). -/
def State.nodeAnswers : State := s.modNode k (fun x => { x with misses := 0, restarted := false, state := .present })

theorem State.storeChannels_nodeAnswers (r : Report) :
    (s.nodeAnswers k).storeChannels k r = s.modNode k (Node.answered r) := s.modNode_modNode k _ _

theorem Calm.storeChannels {s t : State} (h : Calm s t) (k : NodeId) (r : Report) :
    Calm (s.storeChannels k r) (t.storeChannels k r) := by
  have hnodes : (t.storeChannels k r).nodes = (s.storeChannels k r).nodes := by
    simp only [State.storeChannels, State.modNode, State.node, h.nodes]
  exact { h with nodes := hnodes }

theorem calm_reportNode (r : Report) (timeBase : Stamp) :
    Calm (s.modNode k (Node.answered r)) (s.reportNode k r timeBase) := by
  rw [← s.storeChannels_nodeAnswers k r]
  unfold State.reportNode
  dsimp only
  split
  · exact calm_foldl _ _ (fun c _ t => calm_takeChannel _ calm_claim k r timeBase t c) _
  · obtain ⟨u, hreturned, hrest⟩ := (s.nodeAnswers k).returnNode_calm k r timeBase
    exact (hreturned.storeChannels k r).trans hrest

end

/-- What a complete REPORT makes of its node's entry (R113, R114, R116, R118). -/
def Node.judged (r : Report) (k : NodeId) : Node → Node :=
  if goodReport r k then if reportRestarted r then Node.restartedEntry else Node.answered r else Node.missed

theorem calm_judgeReport (r : Report) (x : Exchange) (s : State) :
    Calm (s.modNode x.node (Node.judged r x.node)) (State.judgeReport r x s) := by
  unfold State.judgeReport Node.judged
  split
  · split
    · exact calm_restartedNode s x.node
    · exact calm_reportNode s x.node r x.timeBase
  · exact calm_missNode s x.node

/-! ### The commands -/

/-- s with the exchange x over and the next address to poll (R108). -/
def State.exchangeOver (s : State) (x : Exchange) : State :=
  { s with exchange := .none, nextNode := nextAddress x.node }

/-- The round-end notice that follows the exchange with address 8 (R109). -/
def State.afterExchange (s : State) (k : NodeId) : State := if k = 7 then s.roundEnd else s

theorem State.afterExchange_of_last (s : State) : s.afterExchange 7 = s.roundEnd := rfl

theorem State.afterExchange_of_not_last (s : State) {k : NodeId} (h : k ≠ 7) : s.afterExchange k = s := if_neg h

theorem linkStands_afterExchange (s : State) (k : NodeId) : LinkStands s (s.afterExchange k) := by
  unfold State.afterExchange
  split
  · exact linkStands_roundEnd s
  · exact ⟨rfl, rfl, rfl, rfl, rfl, rfl⟩

section
variable {s : State} {x : Exchange} (hr : s.inReset = false) (hx : s.exchange = some x)
include hr hx

theorem State.running_endExchange (f : Exchange → State → State) :
    s.running (State.endExchange f) = (f x (s.exchangeOver x)).afterExchange x.node := by
  rw [s.running_of_run _ hr, State.endExchange, hx]
  rfl

theorem exec_report_eq (r : Report) : exec (.report r) s =
    .next ((State.judgeReport r x (s.exchangeOver x)).afterExchange x.node) :=
  congrArg Host.Outcome.next (State.running_endExchange hr hx (State.judgeReport r))

theorem exec_miss_eq {c : Instr} (hc : c = .missTimeout ∨ c = .missGap) : exec c s =
    .next (((s.exchangeOver x).missNode x.node).afterExchange x.node) := by
  have h := congrArg (Host.Outcome.next (φ := Fault) (ρ := Refusal))
    (State.running_endExchange hr hx (fun x t => t.missNode x.node))
  rcases hc with rfl | rfl <;> exact h

end

end Sys2Proof.Machine
end

section
/-! SUPPORT. Misses, node loss and the end of a round (R37, R38, R113 to R115). -/

namespace Sys2Proof.Machine

open Sys2Proof

/-! ### An exchange with a node that no district is mapped to -/

/-- A fold of steps that each leave s is s. -/
theorem foldl_of_fixed {α : Type} {f : State → α → State} {l : List α} {s : State} (h : ∀ a ∈ l, f s a = s) :
    l.foldl f s = s :=
  foldl_keeps (P := fun t => t = s) f l (fun a ha _ ht => (congrArg (f · a) ht).trans (h a ha)) s rfl

theorem State.takeChannel_of_unmapped {s : State} {k : NodeId} {c : ChannelId} (h : s.mapped k c = .none)
    (claim : State → DistrictId → (State → State) → State) (r : Report) (timeBase : Stamp) :
    State.takeChannel claim k r timeBase s c = s := by
  rw [State.takeChannel, h]

theorem State.returnClaimAt_of_unmapped {s : State} {k : NodeId} {c : ChannelId} (h : s.mapped k c = .none) :
    State.returnClaimAt k s c = s := by
  rw [State.returnClaimAt, h]

section
variable {s : State} {k : NodeId} (hnone : ∀ d, ¬((s.dist d).invalid = false ∧ (s.dist d).node = some k))
include hnone

theorem State.mapped_of_unmapped (c : ChannelId) : s.mapped k c = .none :=
  List.find?_eq_none.mpr (fun d _ hd => hnone d ((s.mappedTo_iff k c d).mp hd).1)

theorem State.mappedToNode_of_unmapped : s.mappedToNode k = [] :=
  List.filter_eq_nil_iff.mpr (fun d _ hd => hnone d (by simpa using hd))

theorem State.missNode_of_unmapped : s.missNode k = s.modNode k Node.missed := by
  cases h : (s.node k).state with
  | absent => exact s.missNode_of_absent k h
  | lost => exact s.missNode_of_lost k h
  | present =>
    by_cases hm : (s.node k).misses < 2
    · exact s.missNode_of_present k h hm
    · have hm := Nat.le_of_not_lt hm
      rw [s.missNode_of_third k h hm, State.mappedToNode_of_unmapped hnone, State.inFreeOrder_nil, s.nodeLost_eq k]
      exact s.modNode_congr k (Node.missed_of_third h hm).symm

theorem State.restartedNode_of_unmapped : s.restartedNode k = s.modNode k Node.restartedEntry := by
  by_cases h : (s.node k).state = .present
  · have hnobody : ((s.modNode k Node.restartedEntry).mappedToNode k) = [] := State.mappedToNode_of_unmapped hnone
    rw [s.modNode_restartedEntry_of_present k h] at hnobody ⊢
    rw [State.restartedNode, if_pos h, State.loseNode, hnobody]
    rfl
  · exact s.restartedNode_of_not_present k h

theorem State.reportNode_of_unmapped (r : Report) (timeBase : Stamp) :
    s.reportNode k r timeBase = s.modNode k (Node.answered r) := by
  have htake (claim : State → DistrictId → (State → State) → State) :
      (indices 4).foldl (State.takeChannel claim k r timeBase) (s.modNode k (Node.answered r)) =
        s.modNode k (Node.answered r) :=
    foldl_of_fixed (fun c _ => State.takeChannel_of_unmapped
      (State.mapped_of_unmapped (s := s.modNode k (Node.answered r)) hnone c) claim r timeBase)
  have hreturn : (indices 4).foldl (State.returnClaimAt k) (s.nodeAnswers k) = s.nodeAnswers k :=
    foldl_of_fixed (fun c _ => State.returnClaimAt_of_unmapped
      (State.mapped_of_unmapped (s := s.nodeAnswers k) hnone c))
  have hboth : s.reportNode k r timeBase = if (s.node k).state = .present then
      (indices 4).foldl (State.takeChannel State.claim k r timeBase) ((s.nodeAnswers k).storeChannels k r)
      else (s.nodeAnswers k).returnNode k r timeBase := rfl
  rw [hboth, State.returnNode, hreturn, s.storeChannels_nodeAnswers k r, htake, htake,
    State.rescan_of_same (s.nodeAnswers k) (s.modNode k (Node.answered r)) rfl rfl, ite_self]

theorem State.judgeReport_of_unmapped (r : Report) {x : Exchange} (hk : x.node = k) :
    State.judgeReport r x s = s.modNode k (Node.judged r k) := by
  subst hk
  unfold State.judgeReport Node.judged
  split
  · split
    · exact State.restartedNode_of_unmapped hnone
    · exact State.reportNode_of_unmapped hnone r x.timeBase
  · exact State.missNode_of_unmapped hnone

end

/-- The exchange with address 8 ends, no district mapped there: node 8's entry, and the round (R109). -/
theorem exec_last_of_unmapped {s : State} {x : Exchange} {c : Instr} (hr : s.inReset = false)
    (hx : s.exchange = some x) (hlast : x.node = 7) (hc : c = .missTimeout ∨ c = .missGap ∨ ∃ r, c = .report r)
    (hnone : ∀ d, ¬((s.dist d).invalid = false ∧ (s.dist d).node = some 7)) :
    ∃ f : Node → Node, exec c s = .next (((s.exchangeOver x).modNode 7 f).roundEnd) := by
  have hmiss (hc : c = .missTimeout ∨ c = .missGap) :
      exec c s = .next (((s.exchangeOver x).modNode 7 Node.missed).roundEnd) := by
    rw [exec_miss_eq hr hx hc, hlast, State.missNode_of_unmapped (s := s.exchangeOver x) hnone]
    rfl
  rcases hc with hc | hc | ⟨r, rfl⟩
  · exact ⟨_, hmiss (.inl hc)⟩
  · exact ⟨_, hmiss (.inr hc)⟩
  · refine ⟨Node.judged r 7, ?_⟩
    rw [exec_report_eq hr hx r, State.judgeReport_of_unmapped (s := s.exchangeOver x) hnone r hlast, hlast]
    rfl

/-! ### The one due slot -/

theorem State.dueSlots_of_one {s : State} {n : SlotId}
    (h : ∀ m, ((s.slot m).state = .gathering ∧ (s.slot m).roundSeen = true ∧ (s.slot m).timer = .none) ↔ m = n) :
    s.dueSlots = [n] := by
  refine List.perm_singleton.mp ((List.perm_ext_iff_of_nodup s.dueSlots_nodup (List.nodup_singleton n)).mpr ?_)
  intro m
  rw [s.mem_dueSlots, h m, List.mem_singleton]

/-- A due slot closes as by the expiry of its timer, had that still to come (R38). -/
theorem exec_gatheringTimerExpiry_of_due {s : State} {n : SlotId} (hr : s.inReset = false)
    (hn : (s.slot n).state = .gathering ∧ (s.slot n).roundSeen = true ∧ (s.slot n).timer = .none) :
    exec (.gatheringTimerExpiry n) (s.modSlot n (fun y => { y with timer := some 0 })) =
      .next (State.closeGathering n s) := by
  obtain ⟨hg, hseen, ht⟩ := hn
  have hrun : (s.modSlot n (fun y => { y with timer := some 0 })).inReset = false := hr
  have hslot := s.slot_modSlot_same n (fun y => { y with timer := some 0 })
  have hstopped : (s.modSlot n (fun y => { y with timer := some 0 })).gatheringStopped n = s := by
    rw [State.gatheringStopped, State.modSlot_modSlot]
    exact s.modSlot_self n _ (by rw [← ht])
  generalize s.modSlot n (fun y => { y with timer := some 0 }) = u at hrun hslot hstopped ⊢
  rw [exec_gatheringTimerExpiry hrun (by rw [hslot]; exact hg) (by rw [hslot]; rfl), hstopped,
    if_pos (by rw [hslot]; exact hseen)]

/-! ### The one district of a lost node (R115) -/

/-- What a loss claim makes of d (R115): its context UNREACHABLE, and its place in the queue given up. -/
theorem State.loseDistrict_spec {s : State} {d : DistrictId} (hu : (s.dist d).state ≠ .unreachable)
    (hl : (s.dist d).state ≠ .locked) (hc : (s.dist d).state ≠ .checkHold) :
    (s.loseDistrict d).dist d = (s.dist d).enter s.control .unreachable
      ∧ (s.loseDistrict d).queue = s.queue.erase d
      ∧ ∀ e : DistrictId, e ≠ d → (s.loseDistrict d).dist e = s.dist e := by
  have h : s.loseDistrict d = (s.depart d).enter d .unreachable := by
    unfold State.loseDistrict
    split
    case h_1 h => exact absurd h hu
    case h_2 h => exact absurd h hl
    case h_3 h => exact absurd h hc
    all_goals rfl
  rw [h]
  refine ⟨?_, s.queue_depart d, fun e he => ?_⟩
  · rw [State.dist_enter_same, s.dist_depart, (calm_depart s d).control]
  · rw [State.dist_enter_other _ _ _ _ he, s.dist_depart]

/-- Settles O51: the entry the miss gives the node, its district's loss claim, and the round end in each case of the
slots that are due. -/
theorem missCountsTowardsNodeLoss : Obligations.MissCountsTowardsNodeLoss := by
  refine ⟨fun s x c hr hx hc => ?_, fun s x c hr hx hlast hc hnone => ?_⟩
  · have hend := (calm_missNode (s.exchangeOver x) x.node).linkStands.trans (linkStands_afterExchange _ x.node)
    have hexec := exec_miss_eq hr hx hc
    obtain ⟨hnode, hothers⟩ := hend.node_modNode
    have hentry : (s.exchangeOver x).node x.node = s.node x.node := rfl
    obtain ⟨hrestarted, hchannels⟩ := (s.node x.node).missed_keeps
    rw [hentry] at hnode
    refine ⟨_, hexec, hend.exchange, hend.nextNode, hothers, hend.control, hend.mem, ?_, ?_, fun h => ?_,
      fun h hm => ?_, fun h hm => ⟨?_, ?_, fun d hlast hone hp hu hl hk => ?_⟩, fun h => ?_⟩
    all_goals try rw [hnode]
    · exact hrestarted
    · exact hchannels
    · rw [Node.missed_of_absent h]; exact ⟨h, rfl⟩
    · rw [Node.missed_of_present h hm]; exact ⟨h, rfl⟩
    · rw [Node.missed_of_third h hm]
    · rw [Node.missed_of_third h hm]
    · obtain ⟨hd, hq, hothers⟩ := State.loseDistrict_spec (s := (s.exchangeOver x).nodeLost x.node) hu hl hk
      refine ⟨(s.exchangeOver x).nodeLost x.node, _, ?_, rfl, ?_, ?_, ?_, ?_, ?_, hq, hothers⟩
      · have hone : (s.exchangeOver x).mappedToNode x.node = [d] := hone
        rw [State.afterExchange_of_not_last _ hlast, State.missNode_of_third (s.exchangeOver x) _ h hm, hone,
          State.inFreeOrder_one]
        exact State.claim_of_passes _ d _ hp
      all_goals rw [hd]; rfl
    · rw [Node.missed_of_lost h]; exact ⟨h, rfl⟩
  · obtain ⟨f, hexec⟩ := exec_last_of_unmapped hr hx hlast hc hnone
    have hnext : (s.exchangeOver x).nextNode = 0 := by rw [State.exchangeOver, hlast]; rfl
    have hslot (n : SlotId) : ((s.exchangeOver x).modNode 7 f).roundsSeen.slot n = (s.slot n).atRoundEnd :=
      State.slot_roundsSeen _ n
    refine ⟨((s.exchangeOver x).modNode 7 f).roundsSeen, ?_, fun k hk => State.node_modNode_other _ 7 f k hk, hslot,
      fun hnot => ?_, fun n hn => ?_, _, hexec, fun n hg hs ht => ?_⟩
    · rw [← hnext]; rfl
    · have hdue : ((s.exchangeOver x).modNode 7 f).roundsSeen.dueSlots = [] :=
        List.eq_nil_iff_forall_not_mem.mpr (fun n hn => hnot n ((State.mem_dueSlots _ n).mp hn))
      rw [hexec, State.roundEnd_eq, hdue, State.inFreeOrder_nil]
    · have hdue : ((s.exchangeOver x).modNode 7 f).roundsSeen.dueSlots = [n] :=
        State.dueSlots_of_one (fun m => hn m)
      rw [hexec, State.roundEnd_eq, hdue, State.inFreeOrder_one]
      refine (exec_gatheringTimerExpiry_of_due ?_ ((hn n).mpr rfl)).symm
      exact hr
    · exact State.not_gathering_roundEnd _ ((State.mem_dueSlots _ n).mpr ⟨hg, hs, ht⟩)

end Sys2Proof.Machine
end

section
/-! SUPPORT. What no claim, notice, scan, reading or cut does to a context: it is not mapped elsewhere, does not become
valid, does not come to disagree with its check code, and loses no CHECK_ERROR (R8, R21, R23, R107). -/

namespace Sys2Proof.Machine

open Sys2Proof

/-- What stands of a context: its mapping word, and, where it holds, that it is invalid, that it agrees with its check
code and that CHECK_ERROR is latched. -/
structure District.Kept (x y : District) : Prop where
  mapping : y.words[1] = x.words[1]
  invalid : x.invalid = true → y.invalid = true
  agrees : x.codeAgrees = true → y.codeAgrees = true
  checkError : x.flags.checkError = true → y.flags.checkError = true

theorem District.Kept.refl (x : District) : x.Kept x := ⟨rfl, id, id, id⟩

theorem District.Kept.trans {x y z : District} (h : x.Kept y) (g : y.Kept z) : x.Kept z :=
  ⟨g.mapping.trans h.mapping, g.invalid ∘ h.invalid, g.agrees ∘ h.agrees, g.checkError ∘ h.checkError⟩

/-- Every context of s stands so in t. -/
def ContextsKept (s t : State) : Prop := ∀ d, (s.dist d).Kept (t.dist d)

theorem ContextsKept.refl (s : State) : ContextsKept s s := fun _ => .refl _

section
variable {s t : State} (h : ContextsKept s t)
include h

theorem ContextsKept.passes {d : DistrictId} (hp : s.passes d) : t.passes d := by
  cases hi : (s.dist d).invalid with
  | true => exact t.checkFails_of_invalid d ((h d).invalid hi)
  | false =>
    have ha : (s.dist d).codeAgrees = true := by simpa [State.passes, State.checkFails, hi] using hp
    exact t.checkFails_of_agrees d ((h d).agrees ha)

/-- A valid context of t is valid in s and mapped as there. -/
theorem ContextsKept.of_valid {d : DistrictId} (hv : (t.dist d).invalid = false) :
    (s.dist d).invalid = false ∧ (t.dist d).node = (s.dist d).node ∧ (t.dist d).channel = (s.dist d).channel := by
  refine ⟨?_, ?_, ?_⟩
  · cases hi : (s.dist d).invalid with
    | false => rfl
    | true => exact absurd ((h d).invalid hi) (by rw [hv]; decide)
  · simp only [District.node, District.nodeField, (h d).mapping]
  · simp only [District.channel, (h d).mapping]

theorem ContextsKept.mapped_none {k : NodeId} {c : ChannelId} (hn : s.mapped k c = .none) : t.mapped k c = .none := by
  rw [State.mapped, List.find?_eq_none] at hn ⊢
  intro d hd hm
  obtain ⟨⟨hv, hnode⟩, hchannel⟩ := (t.mappedTo_iff k c d).mp hm
  obtain ⟨hsv, hsnode, hschannel⟩ := h.of_valid hv
  exact hn d hd ((s.mappedTo_iff k c d).mpr ⟨⟨hsv, hsnode ▸ hnode⟩, hschannel ▸ hchannel⟩)

theorem ContextsKept.aloneAt {k : NodeId} {c : ChannelId} {d : DistrictId} (ha : AloneAt s k c d)
    (hv : (t.dist d).invalid = false) : AloneAt t k c d := by
  obtain ⟨hc, honly⟩ := ha
  obtain ⟨-, hnode, hchannel⟩ := h.of_valid hv
  refine ⟨hchannel.trans hc, fun e => ⟨fun ⟨hev, hen⟩ => ?_, ?_⟩⟩
  · obtain ⟨hsv, hsnode, -⟩ := h.of_valid hev
    exact (honly e).mp ⟨hsv, hsnode ▸ hen⟩
  · rintro rfl
    exact ⟨hv, hnode.trans ((honly e).mpr rfl).2⟩

end

/-! ### Replacements, entries and engines -/

section
variable {r s : State} (h : ContextsKept r s)
include h

theorem ContextsKept.of_same {t : State} (hd : t.districts = s.districts) : ContextsKept r t := fun d => by
  have hsame : t.dist d = s.dist d := congrArg (fun v : Vector District 32 => v[d]) hd
  rw [hsame]
  exact h d

theorem ContextsKept.modSlot (n : SlotId) (f : Slot → Slot) : ContextsKept r (s.modSlot n f) := h

theorem ContextsKept.modRing (f : RingWriter → RingWriter) : ContextsKept r (s.modRing f) := h

theorem ContextsKept.unmarkDistrict (d : DistrictId) : ContextsKept r (s.unmarkDistrict d) := h

theorem ContextsKept.modDist (d : DistrictId) (f : District → District) (hf : (s.dist d).Kept (f (s.dist d))) :
    ContextsKept r (s.modDist d f) := fun e => by
  rw [State.dist_modDist]
  split
  · next he => subst he; exact (h e).trans hf
  · exact h e

theorem ContextsKept.enter (d : DistrictId) (st : DistrictState) : ContextsKept r (s.enter d st) :=
  h.modDist d _ ⟨rfl, id, id, id⟩

theorem ContextsKept.enterQueued (d : DistrictId) (b : Bool) : ContextsKept r (s.enterQueued d b) :=
  ((h.modDist d _ ⟨rfl, id, id, id⟩).enter d .queued).of_same rfl

theorem ContextsKept.returnToQueue (d : DistrictId) : ContextsKept r (s.returnToQueue d) :=
  (h.enter d .queued).of_same rfl

theorem ContextsKept.setIntentOff (d : DistrictId) : ContextsKept r (s.setIntentOff d) :=
  h.modDist d _ ⟨get_put_other (s.dist d).words 0 1 _ (by decide), id, fun _ => rfl, id⟩

theorem ContextsKept.mark (p : IntentPos) : ContextsKept r (s.mark p) := fun d => by
  rw [s.dist_mark]
  exact h d

theorem ContextsKept.countAttempt (d : DistrictId) : ContextsKept r (s.countAttempt d) := by
  refine h.modDist d _ ?_
  split <;> exact ⟨rfl, id, id, id⟩

theorem ContextsKept.freeEngine (i : EngineId) : ContextsKept r (s.freeEngine i) := h.of_same rfl

theorem ContextsKept.checkError (d : DistrictId) : ContextsKept r (s.checkError d) := by
  have hleft : ContextsKept r (if (s.dist d).state = .locked then s else (s.depart d).enter d .checkHold) := by
    split
    · exact h
    · exact ContextsKept.enter (s := s.depart d) (fun e => by rw [s.dist_depart]; exact h e) d _
  exact (hleft.modDist d _ ⟨rfl, fun _ => rfl, id, fun _ => rfl⟩).unmarkDistrict d

/-! ### Notices, scans and the ends of claims -/

theorem ContextsKept.closeSlot (n : SlotId) : ContextsKept r (s.closeSlot n) := fun d => by
  obtain ⟨-, -, -, -, hdist⟩ := s.closeSlot_eq n
  obtain ⟨slot, role, hd⟩ := hdist d
  rw [hd]
  exact (h d).trans ⟨rfl, id, id, id⟩

theorem ContextsKept.releaseSuspect (d : DistrictId) : ContextsKept r (s.releaseSuspect d) := by
  unfold State.releaseSuspect
  split
  · exact h.checkError d
  · exact h.enterQueued d true

theorem ContextsKept.notify (before : State) (d : DistrictId) : ContextsKept r (before.notify d s) :=
  State.notify_keeps (P := ContextsKept r) (fun _ n ht => ht.closeSlot n) (fun _ e ht _ => ht.releaseSuspect e) before d
    s h

theorem ContextsKept.beginRamp (i : EngineId) (d : DistrictId) : ContextsKept r (s.beginRamp i d) := by
  have htaken : ContextsKept r (s.takeEngine i d) :=
    (ContextsKept.enter (s := State.modEngine { s with queue := s.queue.erase d } i _) h d .ramping).of_same rfl
  unfold State.beginRamp
  split
  · exact htaken
  · exact ContextsKept.modDist (s := (s.takeEngine i d).modEngine i _) htaken d _ ⟨rfl, id, id, id⟩

theorem ContextsKept.completeRamp (i : EngineId) (d : DistrictId) : ContextsKept r (s.completeRamp i d) :=
  ((h.enter d .proving).countAttempt d).freeEngine i

theorem ContextsKept.grant (i : EngineId) (d : DistrictId) : ContextsKept r (s.grant i d) := by
  have hbegun := (h.beginRamp i d).notify s d
  unfold State.grant
  dsimp only
  split
  · exact (h.checkError d).notify s d
  · split
    · exact (hbegun.completeRamp i d).notify _ d
    · exact hbegun

theorem ContextsKept.rescan (before : State) : ContextsKept r (before.rescan s) := by
  unfold State.rescan
  split
  · exact State.scan_keeps (P := ContextsKept r) (fun _ i d ht _ _ _ => ht.grant i d) s h
  · exact h

theorem ContextsKept.finish (before : State) (d : DistrictId) : ContextsKept r (before.finish d s) :=
  (h.notify before d).rescan before

theorem ContextsKept.claim (d : DistrictId) {f : State → State} (hf : ContextsKept r (f s)) :
    ContextsKept r (s.claim d f) := by
  unfold State.claim State.raiseCheck
  split
  · exact (h.checkError d).finish s d
  · exact hf.finish s d

theorem ContextsKept.claimUnscanned (d : DistrictId) {f : State → State} (hf : ContextsKept r (f s)) :
    ContextsKept r (s.claimUnscanned d f) := by
  refine ContextsKept.notify ?_ s d
  split
  · exact h.checkError d
  · exact hf

/-! ### Readings and cuts (R31 to R36, R45, R119) -/

theorem ContextsKept.takeReadings (d : DistrictId) (x : ChannelReport) : ContextsKept r (s.takeReadings d x) := by
  have hread := h.modDist d (fun y => { y with current := x.current }) ⟨rfl, id, id, id⟩
  unfold State.takeReadings
  dsimp only
  split
  · split
    · split
      · exact hread.of_same rfl
      · exact hread
    · split
      · exact hread.enter d _
      · exact hread
    all_goals exact hread
  · exact hread

theorem ContextsKept.leaveEnergised (d : DistrictId) : ContextsKept r (s.leaveEnergised d) := by
  unfold State.leaveEnergised
  split
  · exact (h.countAttempt d).freeEngine _
  · exact h

theorem ContextsKept.enterLockout (d : DistrictId) : ContextsKept r (s.enterLockout d) := by
  have hslots : ContextsKept r (match (s.dist d).incidentSlot with
      | some n => s.modSlot n (fun x => { x with lockouts := addDistrict x.lockouts d })
      | .none => s) := by
    split <;> exact h
  exact (((hslots.enter d _).modDist d _ ⟨rfl, id, id, id⟩).setIntentOff d).mark _

theorem ContextsKept.enterCloseState (d : DistrictId) : ContextsKept r (s.enterCloseState d) := by
  have hflip : ContextsKept r (s.flip d) := by
    have hreversing : ContextsKept r (s.enterReversing d) := (h.modDist d _ ⟨rfl, id, id, id⟩).enter d .reversing
    unfold State.flip
    split
    · exact hreversing.returnToQueue d
    · exact hreversing
  unfold State.enterCloseState
  split
  · exact h.enter d _
  · split
    · exact h.enterLockout d
    · split
      · exact hflip
      all_goals exact h.enter d _

theorem ContextsKept.newTrip (d : DistrictId) (c : Cut) : ContextsKept r (s.newTrip d c) := by
  have hnamed {t : State} (ht : ContextsKept r t) (e : DistrictId) (n : SlotId) : ContextsKept r (t.nameSlot e n) :=
    ht.modDist e _ ⟨rfl, id, id, id⟩
  have htripped : ContextsKept r ((s.leaveEnergised d).enterTripped d c) :=
    ((h.leaveEnergised d).enter d _).modDist d _ ⟨rfl, id, id, id⟩
  have hclosed : ContextsKept r (((s.leaveEnergised d).enterTripped d c).recordSolitary d c) :=
    (htripped.modRing _).modDist d _ ⟨rfl, id, id, id⟩
  unfold State.newTrip
  dsimp only
  split
  · exact hnamed (htripped.modSlot _ _) _ _
  · split
    · exact hnamed (ContextsKept.modSlot (s := { (s.leaveEnergised d).enterTripped d c with
        nextId := ((s.leaveEnergised d).enterTripped d c).nextId + 1 }) htripped _ _) _ _
    · unfold State.solitary
      dsimp only
      split
      · exact (hclosed.enterCloseState d).modDist d _ ⟨rfl, id, id, id⟩
      · exact hclosed.enterCloseState d

theorem ContextsKept.furtherCut (n : SlotId) (d : DistrictId) (c : Cut) : ContextsKept r (s.furtherCut n d c) := by
  have hlatched := h.modDist d District.latchTripped ⟨rfl, id, id, id⟩
  unfold State.furtherCut
  dsimp only
  split
  · exact (hlatched.modDist d _ ⟨rfl, id, id, id⟩).modSlot n _
  · exact hlatched

theorem ContextsKept.reTrip (n : SlotId) (d : DistrictId) (c : Cut) : ContextsKept r (s.reTrip n d c) := by
  have hsuspect : ContextsKept r (s.becomeSuspect n d c) :=
    ((((h.leaveEnergised d).modDist d _ ⟨rfl, id, id, id⟩).modDist d _ ⟨rfl, id, id, id⟩).modSlot n _).modSlot n _
  unfold State.reTrip
  dsimp only
  split
  · exact hsuspect.enter d _
  · split
    · exact hsuspect.enterLockout d
    · exact hsuspect.enter d _

theorem ContextsKept.takeCut (d : DistrictId) (c : Cut) : ContextsKept r (s.takeCut d c) := by
  unfold State.takeCut
  split
  · split
    · split
      · exact h.furtherCut _ d c
      -- RAMPING, PROVING and LIVE return to TRIPPED
      case h_2 | h_3 | h_4 => exact ((h.leaveEnergised d).enter d _).furtherCut _ d c
      all_goals exact h
    · split
      · exact h.reTrip _ d c
      · exact h
    all_goals exact h
  · split
    · exact h.newTrip d c
    · exact h

/-- A channel's readings and cut, taken by either kind of claim. -/
theorem ContextsKept.takeChannel {claim : State → DistrictId → (State → State) → State}
    (hclaim : ∀ t d f, ContextsKept r t → ContextsKept r (f t) → ContextsKept r (claim t d f)) (k : NodeId)
    (x : Report) (timeBase : Stamp) (c : ChannelId) : ContextsKept r (State.takeChannel claim k x timeBase s c) := by
  unfold State.takeChannel
  split
  · exact h
  · next d _ =>
    have hread := hclaim s d (fun u => u.takeReadings d (reportChannel x c)) h (h.takeReadings d _)
    dsimp only
    split
    · exact hclaim _ d _ hread (hread.takeCut d _)
    · exact hread

end

end Sys2Proof.Machine
end

section
/-! SUPPORT. A REPORT that answers for one district: its channel alone is taken, and what its readings change (R116,
R119, R58, R59, R77). -/

namespace Sys2Proof.Machine

open Sys2Proof

/-! ### One channel of four -/

/-- A fold of which one step alone changes anything is that step. -/
theorem foldl_of_one {α : Type} {f : State → α → State} {l : List α} {a : α} {s : State} (ha : a ∈ l) (hl : l.Nodup)
    (hbefore : ∀ b, b ≠ a → f s b = s) (hafter : ∀ b, b ≠ a → f (f s a) b = f s a) : l.foldl f s = f s a := by
  obtain ⟨before, after, rfl⟩ := List.append_of_mem ha
  have hnot : a ∉ before ++ after := (List.nodup_cons.mp (List.perm_middle.nodup_iff.mp hl)).1
  rw [List.foldl_append, List.foldl_cons]
  rw [foldl_of_fixed (fun b hb => hbefore b (by rintro rfl; exact hnot (List.mem_append_left _ hb)))]
  exact foldl_of_fixed (fun b hb => hafter b (by rintro rfl; exact hnot (List.mem_append_right _ hb)))

section
variable {s : State} {k : NodeId} {c : ChannelId} {d : DistrictId} (ha : AloneAt s k c d)
include ha

theorem AloneAt.valid : (s.dist d).invalid = false := ((ha.2 d).mpr rfl).1

/-- A valid context that passes its check agrees with its code (R21). -/
theorem AloneAt.agrees (hp : s.passes d) : (s.dist d).codeAgrees = true := by
  simpa [State.passes, State.checkFails, ha.valid] using hp

/-- Where d alone is mapped to the node, its channel alone is taken. -/
theorem State.takeChannels_of_alone {claim : State → DistrictId → (State → State) → State}
    (hclaim : ∀ t d f, ContextsKept s t → ContextsKept s (f t) → ContextsKept s (claim t d f)) (r : Report)
    (timeBase : Stamp) :
    (indices 4).foldl (State.takeChannel claim k r timeBase) s = State.takeChannel claim k r timeBase s c :=
  foldl_of_one (List.mem_finRange c) (List.nodup_finRange 4)
    (fun _ hb => State.takeChannel_of_unmapped (State.mapped_of_alone_other ha hb) claim r timeBase)
    (fun _ hb => State.takeChannel_of_unmapped (((ContextsKept.refl s).takeChannel hclaim k r timeBase c).mapped_none
      (State.mapped_of_alone_other ha hb)) claim r timeBase)

/-- A channel with no new cut gives its district its readings. -/
theorem State.takeChannel_of_uncut (claim : State → DistrictId → (State → State) → State) {r : Report}
    (timeBase : Stamp) (hn : (reportChannel r c).newCut = false) :
    State.takeChannel claim k r timeBase s c = claim s d (fun u => u.takeReadings d (reportChannel r c)) := by
  rw [State.takeChannel, State.mapped_of_alone ha]
  exact if_neg (by rw [hn]; decide)

/-- A channel with a new cut gives its district its readings and then the cut. -/
theorem State.takeChannel_of_cut (claim : State → DistrictId → (State → State) → State) {r : Report}
    (timeBase : Stamp) (hn : (reportChannel r c).newCut = true) :
    State.takeChannel claim k r timeBase s c =
      claim (claim s d (fun u => u.takeReadings d (reportChannel r c))) d
        (fun u => u.takeCut d ((reportChannel r c).cut timeBase)) := by
  rw [State.takeChannel, State.mapped_of_alone ha]
  exact if_pos hn

end

/-! ### Claims compared by d's state, the queue and the engines' districts -/

/-- An engine is freed where it loses its district: its other fields have no part in the scan of a claim (R68). -/
theorem State.freedSince_congr {s u t : State} (h : ∀ e, (u.engine e).district = (s.engine e).district) :
    u.freedSince t = s.freedSince t := by
  simp only [State.freedSince, h]

theorem State.finish_congr {s u : State} (d : DistrictId) (t : State) (hs : (u.dist d).state = (s.dist d).state)
    (hq : u.queue = s.queue) (he : ∀ e, (u.engine e).district = (s.engine e).district) :
    u.finish d t = s.finish d t := by
  have hnotify : u.notify d t = s.notify d t := by rw [State.notify, State.notify, hs]
  rw [State.finish, State.finish, hnotify]
  exact if_congr (by rw [hq, State.freedSince_congr he]) rfl rfl

/-- A claim that leaves d's state, the queue and each engine's district brings nothing else. -/
theorem State.finish_of_held {s u : State} {d : DistrictId} (hs : (u.dist d).state = (s.dist d).state)
    (hq : u.queue = s.queue) (he : ∀ e, (u.engine e).district = (s.engine e).district) : s.finish d u = u := by
  rw [← State.finish_congr d u hs hq he]
  exact State.finish_of_same u d u rfl rfl rfl

/-! ### The readings (R119) -/

/-- The engine that a reading of d goes to: the one that holds d, RAMPING and polled with its own command (R77). -/
def State.readEngine (s : State) (d : DistrictId) : Option EngineId :=
  if (s.dist d).state = .ramping ∧ (s.dist d).polled = true then s.engineOf d else .none

/-- s with the current of d taken, and the fresh reading of its engine (R77, R119). -/
def State.withReading (s : State) (d : DistrictId) (y : ChannelReport) : State :=
  match s.readEngine d with
  | some e =>
    (s.modDist d (fun x => { x with current := y.current })).modEngine e (fun x =>
      { x with reading := some y.current })
  | .none => s.modDist d (fun x => { x with current := y.current })

/-- A polled REVERSING district's channel shows its flip taken (R58, R59). -/
def State.confirms (s : State) (d : DistrictId) (y : ChannelReport) : Prop :=
  (s.dist d).state = .reversing ∧ (s.dist d).polled = true ∧ y.output = .on ∧ y.polarity = (s.dist d).polarity
    ∧ y.newCut = false

section
variable (s : State) (d : DistrictId) (y : ChannelReport)

theorem State.withReading_of_not_ramping (h : (s.dist d).state ≠ .ramping) :
    s.withReading d y = s.modDist d (fun x => { x with current := y.current }) := by
  rw [State.withReading, State.readEngine, if_neg (fun hr => h hr.1)]

theorem State.takeReadings_of_confirmed (h : s.confirms d y) :
    s.takeReadings d y = (s.withReading d y).enter d .proving := by
  obtain ⟨hs, hp, ho, hpol, hn⟩ := h
  rw [s.withReading_of_not_ramping d y (by rw [hs]; decide), State.takeReadings, if_pos hp, hs]
  exact if_pos ⟨ho, hpol, hn⟩

theorem State.takeReadings_of_unconfirmed (h : ¬s.confirms d y) : s.takeReadings d y = s.withReading d y := by
  cases hp : (s.dist d).polled with
  | false =>
    have hnone : s.readEngine d = .none := if_neg (by simp [hp])
    rw [State.takeReadings, hp, State.withReading, hnone]
    rfl
  | true =>
    by_cases hr : (s.dist d).state = .ramping
    · have hengine : s.readEngine d = s.engineOf d := if_pos ⟨hr, hp⟩
      cases he : s.engineOf d <;> simp only [State.takeReadings, State.withReading, hengine, he, hp, hr, if_true]
    · rw [s.withReading_of_not_ramping d y hr, State.takeReadings, if_pos hp]
      split
      case h_1 hs => exact absurd hs hr
      case h_2 hs => exact if_neg (fun ⟨ho, hpol, hn⟩ => h ⟨hs, hp, ho, hpol, hn⟩)
      all_goals rfl

/-- A reading changes d's current and the engines alone. -/
theorem State.withReading_eq : ∃ engines, s.withReading d y =
    { s with engines := engines, districts := put s.districts d { s.dist d with current := y.current } } := by
  unfold State.withReading
  split <;> exact ⟨_, rfl⟩

theorem State.engine_withReading (e : EngineId) : (s.withReading d y).engine e =
    if (s.dist d).state = .ramping ∧ (s.dist d).polled = true ∧ s.engineOf d = some e then
      { s.engine e with reading := some y.current }
    else s.engine e := by
  unfold State.withReading State.readEngine
  by_cases h : (s.dist d).state = .ramping ∧ (s.dist d).polled = true
  · obtain ⟨hr, hp⟩ := h
    rw [if_pos ⟨hr, hp⟩]
    cases he : s.engineOf d with
    | none => simp
    | some i =>
      rw [State.engine_modEngine]
      by_cases hei : e = i
      · subst hei; simp [hr, hp]
      · simp [hei, Ne.symm hei]
  · rw [if_neg h, if_neg (fun hr => h ⟨hr.1, hr.2.1⟩)]
    rfl

theorem State.dist_withReading_same : (s.withReading d y).dist d = { s.dist d with current := y.current } := by
  obtain ⟨engines, h⟩ := s.withReading_eq d y
  rw [h]
  exact get_put_same _ _ _

theorem State.dist_withReading_other {e : DistrictId} (he : e ≠ d) : (s.withReading d y).dist e = s.dist e := by
  obtain ⟨engines, h⟩ := s.withReading_eq d y
  rw [h]
  exact get_put_other _ _ _ _ he

/-- The engines hold the districts they held. -/
theorem State.district_withReading (e : EngineId) :
    ((s.withReading d y).engine e).district = (s.engine e).district := by
  rw [s.engine_withReading]
  split <;> rfl

theorem State.engineOf_withReading (e : DistrictId) : (s.withReading d y).engineOf e = s.engineOf e := by
  simp only [State.engineOf, s.district_withReading]

theorem State.finish_withReading (t : State) : (s.withReading d y).finish d t = s.finish d t := by
  refine State.finish_congr d t ?_ ?_ (s.district_withReading d y)
  · rw [s.dist_withReading_same]
  · obtain ⟨engines, h⟩ := s.withReading_eq d y
    rw [h]

/-- Readings that confirm no flip bring no notice and no scan. -/
theorem State.finish_reading : s.finish d (s.withReading d y) = s.withReading d y := by
  rw [← s.finish_withReading d y]
  exact State.finish_of_same _ d _ rfl rfl rfl

theorem State.passes_withReading {e : DistrictId} (h : s.passes e) : (s.withReading d y).passes e := by
  by_cases he : e = d
  · subst he
    simpa only [State.passes, State.checkFails, s.dist_withReading_same] using h
  · simpa only [State.passes, State.checkFails, s.dist_withReading_other d y he] using h

end

/-! ### A good REPORT of a PRESENT node (R116) -/

/-- s with the exchange x over and its node's entry as the good REPORT r gives it. -/
def State.answeredBy (s : State) (x : Exchange) (r : Report) : State :=
  (s.exchangeOver x).modNode x.node (Node.answered r)

theorem readingTaken_withReading (s : State) (x : Exchange) (r : Report) (d : DistrictId) (y : ChannelReport) :
    ReadingTaken s x d y ((s.answeredBy x r).withReading d y) := by
  obtain ⟨engines, h⟩ := (s.answeredBy x r).withReading_eq d y
  exact ⟨by rw [h]; rfl, fun e => State.engine_withReading (s.answeredBy x r) d y e⟩

section
variable {s : State} {r : Report} {x : Exchange} (hg : GoodAnswer s x r)
include hg

theorem GoodAnswer.exec_eq : exec (.report r) s = .next ((s.exchangeOver x).reportNode x.node r x.timeBase) := by
  obtain ⟨hr, hx, hlast, hgood, hrestarted⟩ := hg
  rw [exec_report_eq hr hx r, State.afterExchange_of_not_last _ hlast, State.judgeReport, if_pos hgood,
    if_neg (by rw [hrestarted]; decide)]

variable {d : DistrictId} {c : ChannelId} (hk : (s.node x.node).state = .present) (ha : AloneAt s x.node c d)
include hk ha

/-- The REPORT of a PRESENT node is its one district's channel, from the entry stored. -/
theorem GoodAnswer.exec_of_present : exec (.report r) s =
    .next (State.takeChannel State.claim x.node r x.timeBase (s.answeredBy x r) c) := by
  have ha' : AloneAt (s.answeredBy x r) x.node c d := ha
  have hreport : (s.exchangeOver x).reportNode x.node r x.timeBase =
      (indices 4).foldl (State.takeChannel State.claim x.node r x.timeBase) (s.answeredBy x r) := by
    rw [State.answeredBy, ← State.storeChannels_nodeAnswers]
    exact if_pos hk
  rw [hg.exec_eq, hreport, State.takeChannels_of_alone ha' (fun _ d _ ht hf => ht.claim d hf)]

end

/-! ### The context of a confirmed flip -/

theorem District.enter_proving_of_reversing (c : Control) {x : District} (h : x.state = .reversing) :
    x.enter c .proving = { x with
      state := .proving
      level := 16
      role := if x.incidentSlot = .none then .none else x.role
      holdoffTimer := .none
      provingTimer := some (field c.provingWindow 0 8 * 10000)
      quietTimer := .none } := by
  have hdrop : x.dropsRole = true ↔ x.incidentSlot = .none := by rw [x.dropsRole_iff]; simp [h]
  simp only [District.enter, hdrop]
  rfl

end Sys2Proof.Machine
end

section
/-! SUPPORT. The return of a node (R116, R117): its one district leaves UNREACHABLE, takes its readings, and only then
does the dispatcher scan; and the REPORT as a whole. -/

namespace Sys2Proof.Machine

open Sys2Proof

/-! ### A district through notices and scans -/

/-- d stands in s as in context x but for what incidents and ramps change: its words, flags and current stand, its
context agrees with its code, and its state is that of x, or it has been granted an engine. -/
structure Resumed (d : DistrictId) (x : District) (s : State) : Prop where
  words : (s.dist d).words = x.words
  flags : (s.dist d).flags = x.flags
  current : (s.dist d).current = x.current
  agrees : (s.dist d).codeAgrees = true
  state : (s.dist d).state = x.state ∨ (s.dist d).state = .ramping ∨ (s.dist d).state = .proving

section
variable {d : DistrictId} {x : District} {s : State} (h : Resumed d x s)
include h

theorem Resumed.apart {t : State} (g : Apart d s t) : Resumed d x t := by
  constructor
  all_goals rw [g.dist]
  · exact h.words
  · exact h.flags
  · exact h.current
  · exact h.agrees
  · exact h.state

/-- d's context in t is that of s with other fields than those of `Resumed` changed, and RAMPING or PROVING. -/
theorem Resumed.ramped {t : State} (hw : (t.dist d).words = (s.dist d).words)
    (hf : (t.dist d).flags = (s.dist d).flags) (hc : (t.dist d).current = (s.dist d).current)
    (ha : (t.dist d).codeAgrees = (s.dist d).codeAgrees)
    (hst : (t.dist d).state = .ramping ∨ (t.dist d).state = .proving) : Resumed d x t :=
  ⟨hw.trans h.words, hf.trans h.flags, hc.trans h.current, ha.trans h.agrees, .inr hst⟩

theorem Resumed.beginRamp (i : EngineId) : Resumed d x (s.beginRamp i d) := by
  have htaken : (s.takeEngine i d).dist d = (s.dist d).enter s.control .ramping := State.dist_enter_same _ d _
  unfold State.beginRamp
  split
  · exact h.ramped (by rw [htaken]; rfl) (by rw [htaken]; rfl) (by rw [htaken]; rfl) (by rw [htaken]; rfl)
      (.inl (by rw [htaken]; rfl))
  · have hstep : ((s.takeEngine i d).commandStep i d 1).dist d = { (s.dist d).enter s.control .ramping with
        level := stepDuty 1 ((s.takeEngine i d).engine i).steps, polled := false } := by
      rw [← htaken]
      exact State.dist_modDist_same _ d _
    exact h.ramped (by rw [hstep]; rfl) (by rw [hstep]; rfl) (by rw [hstep]; rfl) (by rw [hstep]; rfl)
      (.inl (by rw [hstep]; rfl))

theorem Resumed.completeRamp (i : EngineId) : Resumed d x (s.completeRamp i d) := by
  have hdone : (s.completeRamp i d).dist d = { (s.dist d).enter s.control .proving with
      attempts := if ((s.dist d).enter s.control .proving).mark then
        min ((s.dist d).attempts + 1) s.control.limit else (s.dist d).attempts } := by
    have heq : (s.completeRamp i d).dist d = ((s.enter d .proving).countAttempt d).dist d := rfl
    rw [heq, State.countAttempt, State.dist_modDist_same, State.dist_enter_same]
    split <;> rfl
  exact h.ramped (by rw [hdone]; rfl) (by rw [hdone]; rfl) (by rw [hdone]; rfl) (by rw [hdone]; rfl)
    (.inr (by rw [hdone]; rfl))

variable (hx : x.state ≠ .gated)
include hx

theorem Resumed.not_gated : (s.dist d).state ≠ .gated := by
  rcases h.state with hst | hst | hst
  · rwa [hst]
  · rw [hst]; decide
  · rw [hst]; decide

theorem Resumed.notify (before : State) (e : DistrictId) : Resumed d x (before.notify e s) :=
  h.apart (apart_notify before e (h.not_gated hx))

theorem Resumed.grant {i : EngineId} {e : DistrictId} (hi : (s.engine i).district = .none)
    (hadm : s.admissible e = true) : Resumed d x (s.grant i e) := by
  by_cases he : e = d
  · subst he
    have hbegun := (h.beginRamp i).notify hx s e
    unfold State.grant
    rw [s.checkFails_of_agrees e h.agrees, if_neg (by decide)]
    dsimp only
    split
    · exact (hbegun.completeRamp i).notify hx _ e
    · exact hbegun
  · exact h.apart (apart_grant he (h.not_gated hx) hi hadm)

theorem Resumed.rescan (before : State) : Resumed d x (before.rescan s) := by
  unfold State.rescan
  split
  · exact State.scan_keeps (P := Resumed d x) (fun t i e ht hi _ hadm => ht.grant hx hi hadm) s h
  · exact h

end

/-! ### The return (R117) -/

/-- A cut of a district that is neither TRIPPED nor energised changes nothing (R31). -/
theorem State.takeCut_of_unpowered {s : State} {d : DistrictId} (c : Cut) (ht : (s.dist d).state ≠ .tripped)
    (he : (s.dist d).state.energised = false) : s.takeCut d c = s := by
  unfold State.takeCut
  split
  · split
    · split
      case h_1 hs => exact absurd hs ht
      case h_2 hs | h_3 hs | h_4 hs => rw [hs] at he; cases he
      all_goals rfl
    · exact if_neg (by rw [he]; decide)
    all_goals rfl
  · exact if_neg (by rw [he]; decide)

theorem State.claimUnscanned_of_passes {s : State} {d : DistrictId} (f : State → State) (hp : s.passes d) :
    s.claimUnscanned d f = s.notify d (f s) := by
  rw [State.claimUnscanned, if_neg (by rw [show s.checkFails d = false from hp]; decide)]

section
variable (s : State) (d : DistrictId)

theorem State.returnFromLoss_of_off (h : (s.dist d).intent = .off) : s.returnFromLoss d = s.enter d .off := by
  rw [State.returnFromLoss, h]
  rfl

theorem State.returnFromLoss_of_on (h : (s.dist d).intent ≠ .off) : s.returnFromLoss d = s.enterQueued d false :=
  if_pos ((Intent.energising_iff _).mpr h)

/-- The state in which a district returns (R117). -/
def State.returnState : DistrictState := if (s.dist d).intent = .off then .off else .queued

theorem State.dist_returnFromLoss :
    (s.returnFromLoss d).dist d = ({ s.dist d with mark := false } : District).enter s.control (s.returnState d) := by
  unfold State.returnState
  by_cases h : (s.dist d).intent = .off
  · rw [s.returnFromLoss_of_off d h, State.dist_enter_same, if_pos h]
    rfl
  · rw [s.returnFromLoss_of_on d h, s.dist_enterQueued_same, if_neg h]

theorem State.returnState_cases : s.returnState d = .off ∨ s.returnState d = .queued := by
  unfold State.returnState
  split
  · exact .inl rfl
  · exact .inr rfl

end

theorem ContextsKept.returnFromLoss {r s : State} (h : ContextsKept r s) (d : DistrictId) :
    ContextsKept r (s.returnFromLoss d) := by
  unfold State.returnFromLoss
  split
  · exact h.enterQueued d false
  · exact h.enter d .off

/-- s with the return claim of d and its notice taken, the channels and d's current stored, and no scan yet (R116). -/
def State.returned (s : State) (k : NodeId) (r : Report) (d : DistrictId) (y : ChannelReport) : State :=
  ((s.notify d (s.returnFromLoss d)).storeChannels k r).modDist d (fun x => { x with current := y.current })

/-- The notice of the return leaves d's context but for its incident and its role. -/
theorem apart_notify_returnFromLoss (s : State) (d : DistrictId) :
    Apart d (s.returnFromLoss d) (s.notify d (s.returnFromLoss d)) := by
  refine apart_notify s d ?_
  rw [s.dist_returnFromLoss, District.enter_state]
  rcases s.returnState_cases d with h | h <;> rw [h] <;> decide

/-- d's context, its place in the queue and its engine after its return and its readings. -/
theorem apart_returned (s : State) (k : NodeId) (r : Report) (d : DistrictId) (y : ChannelReport) :
    Apart d ((s.returnFromLoss d).modDist d (fun x => { x with current := y.current })) (s.returned k r d y) := by
  have h := apart_notify_returnFromLoss s d
  refine ⟨?_, h.queue, h.engine, h.feeds⟩
  rw [State.returned, State.dist_modDist_same, State.dist_modDist_same]
  exact congrArg (fun x : District => { x with current := y.current }) h.dist

section
variable {s : State} {k : NodeId} {c : ChannelId} {d : DistrictId} (ha : AloneAt s k c d) (hp : s.passes d)
  (hu : (s.dist d).state = .unreachable)
include ha hp hu

theorem State.returnClaims_of_alone :
    (indices 4).foldl (State.returnClaimAt k) s = s.notify d (s.returnFromLoss d) := by
  have hclaim : State.returnClaimAt k s c = s.notify d (s.returnFromLoss d) := by
    rw [State.returnClaimAt, State.mapped_of_alone ha]
    exact (if_pos hu).trans (State.claimUnscanned_of_passes _ hp)
  have hkept : ContextsKept s (s.notify d (s.returnFromLoss d)) := ((ContextsKept.refl s).returnFromLoss d).notify s d
  rw [← hclaim] at hkept ⊢
  exact foldl_of_one (List.mem_finRange c) (List.nodup_finRange 4)
    (fun _ hb => State.returnClaimAt_of_unmapped (State.mapped_of_alone_other ha hb))
    (fun _ hb => State.returnClaimAt_of_unmapped (hkept.mapped_none (State.mapped_of_alone_other ha hb)))

/-- The REPORT of a node that has come back, its one district UNREACHABLE: one scan after the return and the readings,
and no effect of a cut (R116; log 6). -/
theorem State.returnNode_of_alone {r : Report} (timeBase : Stamp) {y : ChannelReport} (hy : y = reportChannel r c) :
    s.returnNode k r timeBase = s.rescan (s.returned k r d y) := by
  have hapart := apart_notify_returnFromLoss s d
  have hkept : ContextsKept s ((s.notify d (s.returnFromLoss d)).storeChannels k r) :=
    ((ContextsKept.refl s).returnFromLoss d).notify s d
  have hstate : (((s.notify d (s.returnFromLoss d)).storeChannels k r).dist d).state = s.returnState d := by
    have h := hapart.state
    rw [s.dist_returnFromLoss] at h
    exact h
  have hvalid : (((s.notify d (s.returnFromLoss d)).storeChannels k r).dist d).invalid = false := by
    have h : ((s.notify d (s.returnFromLoss d)).dist d).invalid = false := by
      rw [hapart.dist, s.dist_returnFromLoss]
      exact ha.valid
    exact h
  rw [State.returnNode, State.returnClaims_of_alone ha hp hu]
  refine congrArg s.rescan ?_
  have hreturned : s.returned k r d y = ((s.notify d (s.returnFromLoss d)).storeChannels k r).modDist d
    (fun x => { x with current := y.current }) := rfl
  rw [hreturned]
  generalize (s.notify d (s.returnFromLoss d)).storeChannels k r = v at hkept hstate hvalid ⊢
  have hav := hkept.aloneAt ha hvalid
  have hquiet : (v.dist d).state ≠ .ramping ∧ (v.dist d).state ≠ .reversing ∧ (v.dist d).state ≠ .tripped
      ∧ (v.dist d).state.energised = false := by
    rw [hstate]
    rcases s.returnState_cases d with h | h <;> rw [h] <;> decide
  obtain ⟨hramping, hreversing, htripped, henergised⟩ := hquiet
  have hread : v.claimUnscanned d (fun u => u.takeReadings d (reportChannel r c)) =
      v.modDist d (fun x => { x with current := y.current }) := by
    rw [State.claimUnscanned_of_passes _ (hkept.passes hp), v.takeReadings_of_unconfirmed d _ (fun h => hreversing h.1),
      v.withReading_of_not_ramping d _ hramping, ← hy]
    exact State.notify_of_same v d _ (by rw [State.dist_modDist_same])
  rw [State.takeChannels_of_alone hav (fun _ e _ ht hf => ht.claimUnscanned e hf)]
  by_cases hcut : (reportChannel r c).newCut = true
  · rw [State.takeChannel_of_cut hav _ timeBase hcut, hread]
    have hpass : (v.modDist d (fun x => { x with current := y.current })).passes d := by
      have hpv := hkept.passes hp
      simpa only [State.passes, State.checkFails, State.dist_modDist_same] using hpv
    rw [State.claimUnscanned_of_passes _ hpass, State.takeCut_of_unpowered]
    · exact State.notify_of_same _ d _ rfl
    · rw [State.dist_modDist_same]; exact htripped
    · rw [State.dist_modDist_same]; exact henergised
  · rw [State.takeChannel_of_uncut hav _ timeBase (eq_false_of_ne_true hcut), hread]

end

end Sys2Proof.Machine
end

section
/-! SUPPORT. REPORT as a whole: the node table, the bytes read, the readings and the return (R108, R113, R116 to R119). -/

namespace Sys2Proof.Machine

open Sys2Proof

/-! ### The bytes (R113, R175) -/

/-- The address byte names position k exactly if it reads as k + 1. -/
theorem eq_addressByte_iff (b : Byte) (k : NodeId) : b = BitVec.ofNat 8 (k.val + 1) ↔ b.toNat = k.val + 1 := by
  have hk := k.isLt
  rw [← BitVec.toNat_inj, BitVec.toNat_ofNat, Nat.mod_eq_of_lt (by omega)]

theorem goodReport_iff (r : Report) (k : NodeId) : goodReport r k = true ↔ r.stopBitsValid = true
    ∧ r.bytes.toList.getD 22 0 = crc8 (r.bytes.toList.take 22) ∧ (r.bytes.toList.getD 0 0).toNat = k.val + 1 := by
  simp only [goodReport, reportByte, Bool.and_eq_true, beq_iff_eq, eq_addressByte_iff, and_assoc,
    eq_comm (a := crc8 (r.bytes.toList.take 22))]

/-! ### The node's entry (R113, R114, R116, R118) -/

theorem Node.judged_of_good {r : Report} {k : NodeId} (hg : goodReport r k = true) (hr : reportRestarted r = false) :
    Node.judged r k = Node.answered r := by
  rw [Node.judged, if_pos hg, if_neg (by rw [hr]; decide)]

theorem Node.judged_of_restarted {r : Report} {k : NodeId} (hg : goodReport r k = true) (hr : reportRestarted r = true) :
    Node.judged r k = Node.restartedEntry := by
  rw [Node.judged, if_pos hg, if_pos hr]

theorem Node.state_restartedEntry (x : Node) :
    x.restartedEntry.state = if x.state = .absent then .absent else .lost := by
  unfold Node.restartedEntry
  cases x.state <;> rfl

/-- A REPORT that is not good is a miss (R113). -/
theorem exec_report_of_bad {s : State} {x : Exchange} {r : Report} (hr : s.inReset = false) (hx : s.exchange = some x)
    (hg : goodReport r x.node = false) : exec (.report r) s = exec .missTimeout s := by
  rw [exec_report_eq hr hx r, exec_miss_eq hr hx (.inl rfl), State.judgeReport, if_neg (by rw [hg]; decide)]

/-- What every REPORT does to the node table, and what it leaves alone. -/
theorem exec_report_spec {s : State} (r : Report) {x : Exchange} (hr : s.inReset = false) (hx : s.exchange = some x) :
    ∃ t : State, exec (.report r) s = .next t ∧ t.exchange = .none ∧ t.nextNode = x.node + 1
      ∧ t.control = s.control ∧ t.lines = s.lines ∧ t.mem = s.mem
      ∧ t.node x.node = Node.judged r x.node (s.node x.node) ∧ ∀ k : NodeId, k ≠ x.node → t.node k = s.node k := by
  have hend := (calm_judgeReport r x (s.exchangeOver x)).linkStands.trans (linkStands_afterExchange _ x.node)
  obtain ⟨hnode, hothers⟩ := hend.node_modNode
  exact ⟨_, exec_report_eq hr hx r, hend.exchange, hend.nextNode, hend.control, hend.lines, hend.mem, hnode, hothers⟩

/-! ### The readings of a PRESENT node's district (R58, R59, R119) -/

section
variable {s : State} {r : Report} {x : Exchange} (hg : GoodAnswer s x r) {d : DistrictId} {c : ChannelId}
  (hk : (s.node x.node).state = .present) (ha : AloneAt s x.node c d) (hp : s.passes d) {y : ChannelReport}
  (hy : y = reportChannel r c)
include hg hk ha hp hy

theorem exec_report_of_uncut (hn : y.newCut = false) : exec (.report r) s =
    .next ((s.answeredBy x r).finish d ((s.answeredBy x r).takeReadings d y)) := by
  have ha' : AloneAt (s.answeredBy x r) x.node c d := ha
  have hp' : (s.answeredBy x r).passes d := hp
  subst hy
  rw [hg.exec_of_present hk ha, State.takeChannel_of_uncut ha' _ _ hn, State.claim_of_passes _ d _ hp']

theorem exec_report_of_confirmed (hn : y.newCut = false) (hst : (s.dist d).state = .reversing)
    (hpolled : (s.dist d).polled = true) (ho : y.output = .on) (hpol : y.polarity = (s.dist d).polarity) :
    exec (.report r) s = .next (((s.answeredBy x r).withReading d y).finish d
      (((s.answeredBy x r).withReading d y).modDist d (fun z =>
        { z with
          state := .proving
          level := 16
          role := if z.incidentSlot = .none then .none else z.role
          holdoffTimer := .none
          provingTimer := some (field s.control.provingWindow 0 8 * 10000)
          quietTimer := .none }))) := by
  have hcontrol : ((s.answeredBy x r).withReading d y).control = s.control := by
    obtain ⟨engines, h⟩ := (s.answeredBy x r).withReading_eq d y
    rw [h]
    rfl
  have hstate : (((s.answeredBy x r).withReading d y).dist d).state = .reversing := by
    rw [State.dist_withReading_same]
    exact hst
  rw [exec_report_of_uncut hg hk ha hp hy hn, State.finish_withReading,
    State.takeReadings_of_confirmed (s.answeredBy x r) d y ⟨hst, hpolled, ho, hpol, hn⟩]
  congr 2
  refine State.modDist_congr _ d ?_
  rw [District.enter_proving_of_reversing _ hstate, hcontrol]

theorem exec_report_of_unconfirmed (hn : y.newCut = false) (hnot : (s.dist d).state ≠ .reversing
    ∨ (s.dist d).polled = false ∨ y.output ≠ .on ∨ y.polarity ≠ (s.dist d).polarity) :
    exec (.report r) s = .next ((s.answeredBy x r).withReading d y) := by
  have hunconfirmed : ¬(s.answeredBy x r).confirms d y := by
    rintro ⟨hst, hpolled, ho, hpol, -⟩
    rcases hnot with h | h | h | h
    · exact h hst
    · exact Bool.false_ne_true (h.symm.trans hpolled)
    · exact h ho
    · exact h hpol
  rw [exec_report_of_uncut hg hk ha hp hy hn, State.takeReadings_of_unconfirmed _ d y hunconfirmed,
    State.finish_reading]

end

/-! ### The return (R116, R117) -/

/-- s with the exchange x over and its node's entry PRESENT, its channels not yet stored (R116). -/
def State.backFrom (s : State) (x : Exchange) : State := (s.exchangeOver x).nodeAnswers x.node

section
variable {s : State} {r : Report} {x : Exchange} (hg : GoodAnswer s x r) {d : DistrictId} {c : ChannelId}
  (hk : (s.node x.node).state ≠ .present) (ha : AloneAt s x.node c d) (hp : s.passes d)
  (hu : (s.dist d).state = .unreachable) {y : ChannelReport} (hy : y = reportChannel r c)

include hg hk ha hp hu hy

theorem exec_report_of_return : exec (.report r) s =
    .next ((s.backFrom x).rescan ((s.backFrom x).returned x.node r d y)) := by
  have hback : (s.exchangeOver x).reportNode x.node r x.timeBase = (s.backFrom x).returnNode x.node r x.timeBase :=
    if_neg hk
  rw [hg.exec_eq, hback, State.returnNode_of_alone (s := s.backFrom x) ha hp hu x.timeBase hy]

end

section
variable {s : State} {x : Exchange} {r : Report} {d : DistrictId} {y : ChannelReport}

theorem State.backFrom_control : (s.backFrom x).control = s.control := rfl

/-- d's context as it returns, with the current of y (R117, R119). -/
def State.returningContext (s : State) (d : DistrictId) (y : ChannelReport) : District :=
  { ({ s.dist d with mark := false } : District).enter s.control (s.returnState d) with current := y.current }

theorem State.returningContext_not_gated : (s.returningContext d y).state ≠ .gated := by
  rw [show (s.returningContext d y).state = s.returnState d from rfl]
  rcases s.returnState_cases d with h | h <;> rw [h] <;> decide

/-- d's context after its return and its readings, the scan still to come. -/
theorem State.dist_returned : ((s.backFrom x).returned x.node r d y).dist d =
    { s.returningContext d y with
      incidentSlot := (((s.backFrom x).returned x.node r d y).dist d).incidentSlot
      role := (((s.backFrom x).returned x.node r d y).dist d).role } := by
  have h := (apart_returned (s.backFrom x) x.node r d y).dist
  have hd : (s.backFrom x).dist d = s.dist d := rfl
  have hback : (s.backFrom x).returningContext d y = s.returningContext d y := by
    rw [State.returningContext, State.returningContext, State.returnState, State.returnState, hd, State.backFrom_control]
  rw [← hback, State.returningContext, ← State.dist_returnFromLoss, h, State.dist_modDist_same]

/-- The scan that ends the REPORT leaves d's words, flags and current, and d as it returned or granted an engine. -/
theorem State.resumed_rescan_returned (ha : (s.dist d).codeAgrees = true) :
    Resumed d (s.returningContext d y) ((s.backFrom x).rescan ((s.backFrom x).returned x.node r d y)) := by
  have hx := s.dist_returned (x := x) (r := r) (d := d) (y := y)
  refine Resumed.rescan ⟨?_, ?_, ?_, ?_, .inl ?_⟩ s.returningContext_not_gated _
  all_goals rw [hx]
  exact ha

/-- A district with intent OFF, in no queue, is OFF after the scan (R64). -/
theorem State.rescan_returned_of_off (hq : d ∉ s.queue) (hi : (s.dist d).intent = .off) :
    (((s.backFrom x).rescan ((s.backFrom x).returned x.node r d y)).dist d).state = .off
      ∧ (((s.backFrom x).rescan ((s.backFrom x).returned x.node r d y)).dist d).level = 0 := by
  have hx := s.dist_returned (x := x) (r := r) (d := d) (y := y)
  have hi' : ((s.backFrom x).dist d).intent = .off := hi
  have hqueue : d ∉ ((s.backFrom x).returned x.node r d y).queue := by
    rw [(apart_returned (s.backFrom x) x.node r d y).queue, State.modDist_queue, State.returnFromLoss_of_off _ d hi']
    exact hq
  have hrest : Resting d ((s.backFrom x).returned x.node r d y) :=
    ⟨by rw [hx]; exact s.returningContext_not_gated (y := y), .inl hqueue⟩
  have hstate : s.returnState d = .off := if_pos hi
  rw [(apart_rescan (s.backFrom x) hrest).dist, hx, State.returningContext, hstate]
  exact ⟨rfl, rfl⟩

/-- The context in which an UNREACHABLE district returns: it has no role to drop. -/
theorem District.enter_of_unreachable (c : Control) {z : District} (h : z.state = .unreachable) {st : DistrictState}
    (hst : st = .off ∨ st = .queued) : ({ z with mark := false } : District).enter c st =
      { z with
        state := st
        level := 0
        mark := false
        holdoffTimer := .none
        provingTimer := .none
        quietTimer := .none } := by
  rcases hst with rfl | rfl <;> simp [District.enter, District.dropsRole, levelOnEntry, markOnEntry, h]

section
variable (hn : (s.dist d).incidentSlot = .none) (hu : (s.dist d).state = .unreachable)
include hn hu

/-- A district in no incident gives no notice of its return: its context and the queue are changed, and the REPORT's
readings taken. -/
theorem State.returned_of_no_incident {st : DistrictState} (hst : st = .off ∨ st = .queued) {q : List DistrictId}
    (heq : (s.backFrom x).returnFromLoss d = { (s.backFrom x).modDist d (fun z =>
      ({ z with mark := false } : District).enter s.control st) with queue := q }) :
    (s.backFrom x).returned x.node r d y = { ((s.answeredBy x r).withReading d y).modDist d (fun z =>
      { z with
        state := st
        level := 0
        mark := false
        holdoffTimer := .none
        provingTimer := .none
        quietTimer := .none }) with queue := q } := by
  have hramping : ((s.answeredBy x r).dist d).state ≠ .ramping := fun h => by cases hu.symm.trans h
  have hstored : s.answeredBy x r = (s.backFrom x).storeChannels x.node r := (State.storeChannels_nodeAnswers _ _ r).symm
  have hquiet : (((s.backFrom x).returnFromLoss d).dist d).incidentSlot = .none := by
    rw [State.dist_returnFromLoss]
    exact hn
  rw [State.returned, State.notify_of_no_incident _ d _ hquiet, heq, State.withReading_of_not_ramping _ d y hramping,
    State.modDist_modDist, hstored]
  have hcontext := State.modDist_modDist ((s.backFrom x).storeChannels x.node r) d
    (fun z => ({ z with mark := false } : District).enter s.control st) (fun z => { z with current := y.current })
  refine congrArg (fun u : State => { u with queue := q }) (hcontext.trans (State.modDist_congr _ d ?_))
  rw [District.enter_of_unreachable s.control (z := ((s.backFrom x).storeChannels x.node r).dist d) hu hst]

theorem State.rescan_returned_of_no_incident_off (hi : (s.dist d).intent = .off) :
    (s.backFrom x).rescan ((s.backFrom x).returned x.node r d y) =
      ((s.answeredBy x r).withReading d y).modDist d (fun z =>
        { z with
          state := .off
          level := 0
          mark := false
          holdoffTimer := .none
          provingTimer := .none
          quietTimer := .none }) := by
  have hramping : ((s.answeredBy x r).dist d).state ≠ .ramping := fun h => by cases hu.symm.trans h
  have hi' : ((s.backFrom x).dist d).intent = .off := hi
  rw [State.returned_of_no_incident hn hu (.inl rfl) (State.returnFromLoss_of_off _ d hi'),
    State.withReading_of_not_ramping _ d y hramping]
  exact State.rescan_of_same (s.backFrom x) _ rfl rfl

theorem State.rescan_returned_of_no_incident_on (hi : (s.dist d).intent ≠ .off) :
    ∃ before after : List DistrictId, NormalPlace s d before after
      ∧ (s.backFrom x).rescan ((s.backFrom x).returned x.node r d y) =
        ({ ((s.answeredBy x r).withReading d y).modDist d (fun z =>
          { z with
            state := .queued
            level := 0
            mark := false
            holdoffTimer := .none
            provingTimer := .none
            quietTimer := .none }) with queue := before ++ d :: after } : State).scan := by
  have hi' : ((s.backFrom x).dist d).intent ≠ .off := hi
  obtain ⟨before, after, hplace, heq⟩ := (s.backFrom x).enterQueued_place d false
  have hreturned := State.returned_of_no_incident (r := r) (y := y) hn hu (.inr rfl)
    ((State.returnFromLoss_of_on _ d hi').trans heq)
  refine ⟨before, after, hplace, ?_⟩
  rw [hreturned]
  refine State.rescan_of_queue _ _ (fun hq => State.queue_enterQueued_ne (s.backFrom x) d false ?_)
  rw [heq]
  exact hq

end

end

/-- Settles O49: the node's entry, the bytes, the readings and their confirmation, and the return with its one scan. -/
theorem goodReportEntersNodeTable : Obligations.GoodReportEntersNodeTable := by
  refine ⟨fun s r x hr hx => ?_, fun r k b hb => ⟨?_, ?_, fun c z hz => ?_⟩,
    fun s r x d c y hg hk ha hp hy hn => ?_, fun s r x d c y hg hk ha hp hu hy => ?_⟩
  · obtain ⟨t, hexec, hexchange, hnext, hcontrol, hlines, hmem, hnode, hothers⟩ := exec_report_spec r hr hx
    refine ⟨t, hexec, hexchange, hnext, hothers, hcontrol, hlines, hmem, fun hg hrs => ?_, fun hg hrs => ?_, fun hg => ?_⟩
    · have hentry : t.node x.node = (s.node x.node).answered r := by rw [hnode, Node.judged_of_good hg hrs]
      refine ⟨by rw [hentry]; rfl, by rw [hentry]; rfl, by rw [hentry]; rfl, fun c => ?_⟩
      rw [State.channel, hentry]
      exact get_tabulate _ c
    · have hentry : t.node x.node = (s.node x.node).restartedEntry := by rw [hnode, Node.judged_of_restarted hg hrs]
      rw [hentry]
      exact ⟨rfl, rfl, rfl, Node.state_restartedEntry _⟩
    · rw [← exec_report_of_bad hr hx hg]
      exact hexec
  · rw [hb 22, hb 0]
    exact goodReport_iff r k
  · rw [hb 1]
    rfl
  · subst hz
    simp only [hb]
    exact ⟨rfl, rfl, rfl, rfl, rfl, rfl⟩
  · exact ⟨_, readingTaken_withReading s x r d y,
      fun hst hpolled ho hpol => exec_report_of_confirmed hg hk ha hp hy hn hst hpolled ho hpol,
      fun hnot => exec_report_of_unconfirmed hg hk ha hp hy hn hnot⟩
  · have hend := State.resumed_rescan_returned (x := x) (r := r) (y := y) (ha.agrees hp)
    refine ⟨_, exec_report_of_return hg hk ha hp hu hy, hend.current, hend.flags, hend.words, fun hq hi => ?_,
      fun hi => ?_, fun hn => ⟨_, readingTaken_withReading s x r d y, fun hi => ?_, fun hi => ?_⟩⟩
    · exact State.rescan_returned_of_off (fun hm => absurd ((hq.2 d).mp hm) (by rw [hu]; decide)) hi
    · have hstate : s.returnState d = .queued := if_neg hi
      rw [← hstate]
      exact hend.state
    · exact State.rescan_returned_of_no_incident_off hn hu hi
    · exact State.rescan_returned_of_no_incident_on hn hu hi

end Sys2Proof.Machine
end

section
/-! SUPPORT. The forming of a POLL (R108 to R111): its channels in order, what each does to its district, the frame and
the check byte (R105, R175). -/

namespace Sys2Proof.Machine

open Sys2Proof

/-! ### A district's own command (R110) -/

theorem DistrictState.energised_iff (x : DistrictState) :
    x.energised = true ↔ x = .ramping ∨ x = .proving ∨ x = .live ∨ x = .reversing := by
  cases x <;> decide

theorem District.command_of_unpowered {x : District} (h : x.state.energised = false) :
    x.command = holdOffAt x.polarity := by
  rw [District.command, if_neg (by rw [h]; decide)]

section
variable {x : District} (he : x.state.energised = true)
include he

theorem District.command_of_full (h : x.level = 16) :
    x.command = { mode := .full, duty := 0, polarity := x.polarity } := by
  rw [District.command, if_pos he, if_pos h]

theorem District.command_of_zero (h : x.level = 0) : x.command = holdOffAt x.polarity := by
  rw [District.command, if_pos he, if_neg (by rw [h]; decide), if_pos h]

theorem District.command_of_step (hfull : x.level ≠ 16) (hzero : x.level ≠ 0) :
    x.command = { mode := .step, duty := x.level, polarity := x.polarity } := by
  rw [District.command, if_pos he, if_neg hfull, if_neg hzero]

end

/-- HOLD_OFF and FULL carry duty 0 (R110). -/
def ChannelCommand.Proper (x : ChannelCommand) : Prop := x.mode ≠ .step → x.duty = 0

theorem holdOffAt_proper (p : Polarity) : (holdOffAt p).Proper := fun _ => rfl

theorem District.command_proper (x : District) : x.command.Proper := by
  unfold District.command
  split
  · split
    · exact fun _ => rfl
    · split
      · exact holdOffAt_proper _
      · exact fun h => absurd rfl h
  · exact holdOffAt_proper _

/-- A command other than HOLD_OFF is an energised district's, at its level and polarity. -/
theorem District.command_of_not_holdOff {x : District} (h : x.command.mode ≠ .holdOff) :
    (x.state = .ramping ∨ x.state = .proving ∨ x.state = .live ∨ x.state = .reversing)
      ∧ x.command.polarity = x.polarity ∧ (x.command.mode = .full → x.level = 16)
      ∧ (x.command.mode = .step → x.command.duty = x.level) := by
  cases he : x.state.energised with
  | false => exact absurd (by rw [District.command_of_unpowered he]; rfl) h
  | true =>
    refine ⟨(DistrictState.energised_iff _).mp he, ?_⟩
    by_cases hfull : x.level = 16
    · rw [District.command_of_full he hfull]
      exact ⟨rfl, fun _ => hfull, nofun⟩
    · by_cases hzero : x.level = 0
      · exact absurd (by rw [District.command_of_zero he hzero]; rfl) h
      · rw [District.command_of_step he hfull hzero]
        exact ⟨rfl, nofun, fun _ => rfl⟩

/-! ### The command of a channel -/

theorem State.sendsOwn_iff (s : State) (k : NodeId) (c : ChannelId) : s.sendsOwn k c = true ↔
    (s.node k).state = .present ∧ (s.channel k c).output ≠ .cut ∧ (s.channel k c).newCut = false := by
  simp [State.sendsOwn, ChannelEntry.held]

section
variable {s : State} {k : NodeId} {c : ChannelId}

theorem State.checkedCommand_of_unmapped (h : s.mapped k c = .none) : s.checkedCommand k c = holdOffAt .a := by
  rw [State.checkedCommand, h]

section
variable {d : DistrictId} (h : s.mapped k c = some d)
include h

theorem State.checkedCommand_of_failing (hp : ¬s.passes d) : s.checkedCommand k c = holdOffAt (s.dist d).polarity := by
  rw [State.checkedCommand, h]
  exact if_pos (eq_true_of_ne_false hp)

theorem State.checkedCommand_of_passing (hp : s.passes d) : s.checkedCommand k c =
    if s.sendsOwn k c then (s.dist d).command else holdOffAt (s.dist d).polarity := by
  have hcommand : s.checkedCommand k c = s.commandFor k c := by
    rw [State.checkedCommand, h]
    exact if_neg (by rw [show s.checkFails d = false from hp]; decide)
  rw [hcommand, State.commandFor, h]

end

theorem State.checkedCommand_proper (s : State) (k : NodeId) (c : ChannelId) : (s.checkedCommand k c).Proper := by
  cases h : s.mapped k c with
  | none => rw [State.checkedCommand_of_unmapped h]; exact holdOffAt_proper _
  | some d =>
    by_cases hp : s.passes d
    · rw [State.checkedCommand_of_passing h hp]
      split
      · exact District.command_proper _
      · exact holdOffAt_proper _
    · rw [State.checkedCommand_of_failing h hp]
      exact holdOffAt_proper _

end

/-! ### The district mapped to a channel (R107) -/

section
variable {s : State} {k : NodeId} {c : ChannelId}

theorem State.mapped_spec {d : DistrictId} (h : s.mapped k c = some d) :
    (s.dist d).invalid = false ∧ (s.dist d).node = some k ∧ (s.dist d).channel = c := by
  obtain ⟨⟨hv, hn⟩, hc⟩ := (s.mappedTo_iff k c d).mp (List.find?_some h)
  exact ⟨hv, hn, hc⟩

theorem State.mapped_eq_none
    (h : ∀ d, ¬((s.dist d).invalid = false ∧ (s.dist d).node = some k ∧ (s.dist d).channel = c)) :
    s.mapped k c = .none := by
  cases hm : s.mapped k c with
  | none => rfl
  | some d => exact absurd (State.mapped_spec hm) (h d)

theorem State.mapped_of_only {d : DistrictId} (hv : (s.dist d).invalid = false) (hn : (s.dist d).node = some k)
    (hc : (s.dist d).channel = c)
    (honly : ∀ e, e ≠ d → ¬((s.dist e).invalid = false ∧ (s.dist e).node = some k ∧ (s.dist e).channel = c)) :
    s.mapped k c = some d := by
  cases hm : s.mapped k c with
  | none => exact absurd ((s.mappedTo_iff k c d).mpr ⟨⟨hv, hn⟩, hc⟩) (List.find?_eq_none.mp hm d (List.mem_finRange d))
  | some e =>
    by_contra hne
    exact honly e (fun he => hne (congrArg some he)) (State.mapped_spec hm)

end

/-! ### Channels formed without a check error -/

/-- The polled marks of districts alone have changed. -/
structure Polled (s t : State) : Prop where
  state : t = { s with districts := t.districts }
  dist : ∀ d, t.dist d = { s.dist d with polled := (t.dist d).polled }

theorem Polled.refl (s : State) : Polled s s := ⟨rfl, fun _ => rfl⟩

theorem Polled.trans {s t u : State} (h : Polled s t) (g : Polled t u) : Polled s u :=
  ⟨by rw [g.state, h.state], fun d => by rw [g.dist d, h.dist d]⟩

theorem Polled.modDist (s : State) (d : DistrictId) (b : Bool) :
    Polled s (s.modDist d (fun x => { x with polled := b })) := by
  refine ⟨rfl, fun e => ?_⟩
  rw [State.dist_modDist]
  split
  · next he => subst he; rfl
  · rfl

section
variable {s t : State} (h : Polled s t)
include h

theorem Polled.checkFails (d : DistrictId) : t.checkFails d = s.checkFails d := by
  rw [State.checkFails, State.checkFails, h.dist d]

theorem Polled.passes_iff (d : DistrictId) : t.passes d ↔ s.passes d := by
  rw [State.passes, State.passes, h.checkFails d]

theorem Polled.mapped (k : NodeId) (c : ChannelId) : t.mapped k c = s.mapped k c := by
  have hmapped : t.mappedTo k c = s.mappedTo k c := funext fun d => by
    rw [State.mappedTo, State.mappedTo, h.dist d]
    rfl
  rw [State.mapped, State.mapped, hmapped]

theorem Polled.checkedCommand (k : NodeId) (c : ChannelId) : t.checkedCommand k c = s.checkedCommand k c := by
  have hsends : t.sendsOwn k c = s.sendsOwn k c := by rw [h.state]; rfl
  cases hm : s.mapped k c with
  | none => rw [State.checkedCommand_of_unmapped hm, State.checkedCommand_of_unmapped ((h.mapped k c).trans hm)]
  | some d =>
    have ht := (h.mapped k c).trans hm
    by_cases hp : s.passes d
    · rw [State.checkedCommand_of_passing hm hp, State.checkedCommand_of_passing ht ((h.passes_iff d).mpr hp), hsends,
        h.dist d]
      rfl
    · rw [State.checkedCommand_of_failing hm hp, State.checkedCommand_of_failing ht (mt (h.passes_iff d).mp hp),
        h.dist d]

end

theorem polled_pollChannel {s : State} {k : NodeId} {c : ChannelId} (hp : ∀ d, s.mapped k c = some d → s.passes d) :
    Polled s (State.pollChannel k s c) := by
  unfold State.pollChannel
  split
  · exact .refl s
  · next d hd =>
    rw [if_neg (by rw [show s.checkFails d = false from hp d hd]; decide)]
    exact .modDist s d _

/-- Channels whose districts pass their check are formed with no other change. -/
theorem polled_foldl_pollChannel {s : State} {k : NodeId} {l : List ChannelId}
    (hp : ∀ c ∈ l, ∀ d, s.mapped k c = some d → s.passes d) : Polled s (l.foldl (State.pollChannel k) s) :=
  foldl_keeps (P := Polled s) _ l (fun c hc _ ht => ht.trans (polled_pollChannel (fun d hd =>
    (ht.passes_iff d).mpr (hp c hc d ((ht.mapped k c).symm.trans hd))))) s (.refl s)

theorem State.ne_of_mem_take {n : Nat} {b c : Fin n} (h : b ∈ (indices n).take c.val) : b ≠ c := by
  rintro rfl
  obtain ⟨i, hi, hb⟩ := List.mem_take_iff_getElem.mp h
  have : i = b.val := by simpa using congrArg Fin.val hb
  omega

/-! ### A check error in a channel (R21, R22, R110) -/

/-- The check error of d has been taken, d having been in state st: and every context passes. -/
structure CheckTaken (d : DistrictId) (st : DistrictState) (s : State) : Prop where
  invalid : (s.dist d).invalid = true
  checkError : (s.dist d).flags.checkError = true
  state : (s.dist d).state = st
  passes : ∀ e, s.passes e

theorem CheckTaken.polled {d : DistrictId} {st : DistrictState} {s t : State} (h : CheckTaken d st s) (g : Polled s t) :
    CheckTaken d st t := by
  constructor
  case passes => exact fun e => (g.passes_iff e).mpr (h.passes e)
  all_goals rw [g.dist d]
  · exact h.invalid
  · exact h.checkError
  · exact h.state

/-- The context of d once its check error is taken. -/
theorem State.dist_checkError (s : State) (d : DistrictId) :
    ((s.checkError d).dist d).invalid = true ∧ ((s.checkError d).dist d).flags.checkError = true
      ∧ ((s.checkError d).dist d).state = if (s.dist d).state = .locked then .locked else .checkHold := by
  obtain ⟨-, hlocked, helse⟩ := checkErrorTaken_checkError s d
  by_cases h : (s.dist d).state = .locked
  · rw [hlocked h, if_pos h, State.dist, get_put_same]
    exact ⟨rfl, rfl, h⟩
  · rw [(helse h).2, if_neg h, State.dist, get_put_same]
    exact ⟨rfl, rfl, rfl⟩

theorem State.state_raiseCheck {s : State} {d : DistrictId} (hq : s.queue.Nodup) :
    ((s.raiseCheck d).dist d).state = if (s.dist d).state = .locked then .locked else .checkHold := by
  obtain ⟨-, -, hstate⟩ := s.dist_checkError d
  obtain ⟨-, hlocked, helse⟩ := checkErrorTaken_checkError s d
  by_cases h : (s.dist d).state = .locked
  · rw [State.raiseCheck, State.finish_of_same s d (s.checkError d), hstate]
    · rw [hstate, if_pos h, h]
    · rw [hlocked h]
    · rw [hlocked h]
  · have hqueue : (s.checkError d).queue = s.queue.erase d := by rw [(helse h).2]
    have hresting : Resting d (s.checkError d) := by
      refine ⟨by rw [hstate, if_neg h]; decide, .inl ?_⟩
      rw [hqueue]
      exact hq.not_mem_erase
    rw [State.raiseCheck, (apart_finish s d hresting).state, hstate]

/-- A channel whose district fails its check: the check error is taken, and no other context comes to fail. -/
theorem checkTaken_pollChannel {s : State} {k : NodeId} {c : ChannelId} {d : DistrictId} (hm : s.mapped k c = some d)
    (hd : ¬s.passes d) (hp : ∀ e, e ≠ d → s.passes e) :
    CheckTaken d ((s.raiseCheck d).dist d).state (State.pollChannel k s c) := by
  have hpoll : State.pollChannel k s c = (s.raiseCheck d).modDist d (fun x => { x with polled := false }) := by
    rw [State.pollChannel, hm]
    exact if_pos (eq_true_of_ne_false hd)
  have hpolled := Polled.modDist (s.raiseCheck d) d false
  obtain ⟨hinvalid, hflag, -⟩ := s.dist_checkError d
  have hafter : ContextsKept (s.checkError d) (s.raiseCheck d) := (ContextsKept.refl _).finish s d
  have hkept : ContextsKept s (s.raiseCheck d) := ((ContextsKept.refl s).checkError d).finish s d
  have htaken : CheckTaken d ((s.raiseCheck d).dist d).state (s.raiseCheck d) := by
    refine ⟨(hafter d).invalid hinvalid, (hafter d).checkError hflag, rfl, fun e => ?_⟩
    by_cases he : e = d
    · rw [he]
      exact State.checkFails_of_invalid _ d ((hafter d).invalid hinvalid)
    · exact hkept.passes (hp e he)
  rw [hpoll]
  exact htaken.polled hpolled

end Sys2Proof.Machine
end

section
/-! PROOF. O48: the commands of a POLL follow the states of the districts (R105, R108 to R111, R175). -/

namespace Sys2Proof.Machine

open Sys2Proof

/-! ### The frame and its check byte (R105, R175) -/

theorem crc8_append (before : List Byte) (a : Byte) : crc8 (before ++ [a]) = crcShift^[8] (crc8 before ^^^ a) := by
  rw [crc8, List.foldl_append]
  rfl

theorem ChannelCommand.byte_toNat (x : ChannelCommand) (b : Bool) :
    (x.byte b).toNat = x.mode.code + 4 * (x.duty % 16) + (if x.polarity = .b then 64 else 0)
      + (if b then 128 else 0) := by
  have hmode : x.mode.code < 3 := by cases x.mode <;> decide
  have hpolarity : x.polarity.code = if x.polarity = .b then 1 else 0 := by cases x.polarity <;> rfl
  rw [ChannelCommand.byte, BitVec.toNat_ofNat, hpolarity]
  simp only [place, ofMark]
  split <;> split <;> omega

theorem Exchange.frame_spec (x : Exchange) : ∃ (p q r : Byte) (m : ChannelId → Byte),
    x.frame = [p, q, r, m 0, m 1, m 2, m 3, crc8 [p, q, r, m 0, m 1, m 2, m 3]]
      ∧ p.toNat = x.node.val + 1 + 16 * (x.timeBase.toNat / 2 ^ 20) ∧ q.toNat = x.timeBase.toNat / 2 ^ 12 % 256
      ∧ r.toNat = x.timeBase.toNat / 2 ^ 4 % 256
      ∧ ∀ c : ChannelId, (m c).toNat = x.commands[c].mode.code + 4 * (x.commands[c].duty % 16)
        + (if x.commands[c].polarity = .b then 64 else 0) + (if x.timeBase.getLsbD c.val then 128 else 0) := by
  refine ⟨_, _, _, fun c => x.commands[c].byte (x.timeBase.getLsbD c.val), rfl, ?_, BitVec.toNat_ofNat _ 8,
    BitVec.toNat_ofNat _ 8, fun c => x.commands[c].byte_toNat _⟩
  have hnode := x.node.isLt
  have htime := x.timeBase.isLt
  simp only [BitVec.toNat_ofNat, place]
  omega

/-! ### The commands sent -/

/-- The command that a POLL formed in s sends in channel c of node k. -/
def State.sentCommand (s : State) (k : NodeId) (c : ChannelId) : ChannelCommand :=
  (s.beforeChannel k c).checkedCommand k c

/-- s with the four channels of node k formed in order. -/
def State.channelsPolled (s : State) (k : NodeId) : State := (indices 4).foldl (State.pollChannel k) s

section
variable {s : State} {k : NodeId} {c : ChannelId}

/-- A command other than HOLD_OFF needs its node PRESENT and its channel unheld (R110, R111). -/
theorem State.sendsOwn_of_sentCommand (h : (s.sentCommand k c).mode ≠ .holdOff) : s.sendsOwn k c = true := by
  have hsends := State.sendsOwn_of_not_holdOff (s.beforeChannel k c) k c h
  rwa [State.sendsOwn, State.channel, State.node, (calm_beforeChannel s k c).nodes] at hsends

/-- Where the districts of the other channels pass their checks, the command is that formed in s. -/
theorem State.sentCommand_eq (hp : ∀ b, b ≠ c → ∀ d, s.mapped k b = some d → s.passes d) :
    s.sentCommand k c = s.checkedCommand k c :=
  (polled_foldl_pollChannel (fun _ hb => hp _ (State.ne_of_mem_take hb))).checkedCommand k c

/-- With all contexts passing, a command other than HOLD_OFF is its district's own, and a channel with no district is
commanded HOLD_OFF at polarity A (R107, R110). -/
theorem State.sentCommand_of_all_passing (hp : ∀ d, s.passes d) :
    ((s.sentCommand k c).mode ≠ .holdOff → ∃ d : DistrictId, (s.dist d).invalid = false
      ∧ (s.dist d).node = some k ∧ (s.dist d).channel = c
      ∧ ((s.dist d).state = .ramping ∨ (s.dist d).state = .proving ∨ (s.dist d).state = .live
        ∨ (s.dist d).state = .reversing)
      ∧ (s.sentCommand k c).polarity = (s.dist d).polarity
      ∧ ((s.sentCommand k c).mode = .full → (s.dist d).level = 16)
      ∧ ((s.sentCommand k c).mode = .step → (s.sentCommand k c).duty = (s.dist d).level))
    ∧ ((∀ d : DistrictId, ¬((s.dist d).invalid = false ∧ (s.dist d).node = some k ∧ (s.dist d).channel = c)) →
      s.sentCommand k c = holdOffAt .a) := by
  have heq := s.sentCommand_eq (k := k) (c := c) (fun _ _ d _ => hp d)
  refine ⟨fun h => ?_, fun hnone => by rw [heq, State.checkedCommand_of_unmapped (State.mapped_eq_none hnone)]⟩
  cases hm : s.mapped k c with
  | none => exact absurd (by rw [heq, State.checkedCommand_of_unmapped hm]; rfl) h
  | some d =>
    have hown : s.sentCommand k c = (s.dist d).command := by
      rw [heq, State.checkedCommand_of_passing hm (hp d), if_pos (State.sendsOwn_of_sentCommand h)]
    obtain ⟨hv, hn, hc⟩ := State.mapped_spec hm
    rw [hown] at h ⊢
    exact ⟨d, hv, hn, hc, District.command_of_not_holdOff h⟩

/-- d is the one valid district mapped to channel c of node k, and every other context passes its check. -/
structure OnlyAt (s : State) (k : NodeId) (c : ChannelId) (d : DistrictId) : Prop where
  mapped : s.mapped k c = some d
  others : ∀ e, e ≠ d → s.passes e

section
variable {d : DistrictId} (h : OnlyAt s k c d)
include h

theorem OnlyAt.passes_of_other {b : ChannelId} (hb : b ≠ c) (e : DistrictId) (he : s.mapped k b = some e) :
    s.passes e := by
  refine h.others e ?_
  rintro rfl
  exact hb ((State.mapped_spec he).2.2.symm.trans (State.mapped_spec h.mapped).2.2)

theorem OnlyAt.sentCommand_of_passing (hp : s.passes d) : s.sentCommand k c =
    if s.sendsOwn k c then (s.dist d).command else holdOffAt (s.dist d).polarity := by
  rw [s.sentCommand_eq (fun _ hb e he => h.passes_of_other hb e he), State.checkedCommand_of_passing h.mapped hp]

theorem OnlyAt.sentCommand_of_failing (hp : ¬s.passes d) : s.sentCommand k c = holdOffAt (s.dist d).polarity := by
  rw [s.sentCommand_eq (fun _ hb e he => h.passes_of_other hb e he), State.checkedCommand_of_failing h.mapped hp]

/-- d's command where its node is PRESENT, its channel unheld and d energised (R110 case 4). -/
theorem OnlyAt.sentCommand_of_powered (hp : s.passes d) (hnode : (s.node k).state = .present)
    (hcut : (s.channel k c).output ≠ .cut) (hnew : (s.channel k c).newCut = false)
    (he : (s.dist d).state = .ramping ∨ (s.dist d).state = .proving ∨ (s.dist d).state = .live
      ∨ (s.dist d).state = .reversing) :
    ((s.dist d).level = 16 → s.sentCommand k c = { mode := .full, duty := 0, polarity := (s.dist d).polarity })
      ∧ (1 ≤ (s.dist d).level → (s.dist d).level ≤ 15 →
        s.sentCommand k c = { mode := .step, duty := (s.dist d).level, polarity := (s.dist d).polarity }) := by
  have he := (DistrictState.energised_iff _).mpr he
  rw [h.sentCommand_of_passing hp, if_pos ((State.sendsOwn_iff s k c).mpr ⟨hnode, hcut, hnew⟩)]
  exact ⟨District.command_of_full he, fun hlo hhi =>
    District.command_of_step he (Nat.ne_of_lt (Nat.lt_succ_of_le hhi)) (Nat.ne_of_gt hlo)⟩

/-- HOLD_OFF where the node is not PRESENT, the channel held or d not energised (R110 cases 1, 3 and 4). -/
theorem OnlyAt.sentCommand_of_withheld (hp : s.passes d)
    (hw : (s.node k).state ≠ .present ∨ (s.channel k c).output = .cut ∨ (s.channel k c).newCut = true
      ∨ (s.dist d).state ≠ .ramping ∧ (s.dist d).state ≠ .proving ∧ (s.dist d).state ≠ .live
        ∧ (s.dist d).state ≠ .reversing) :
    s.sentCommand k c = holdOffAt (s.dist d).polarity := by
  rw [h.sentCommand_of_passing hp]
  split
  · next hsends =>
    obtain ⟨hnode, hcut, hnew⟩ := (State.sendsOwn_iff s k c).mp hsends
    refine District.command_of_unpowered (eq_false_of_ne_true fun he => ?_)
    rcases hw with hw | hw | hw | ⟨hramping, hproving, hlive, hreversing⟩
    · exact hw hnode
    · exact hcut hw
    · exact Bool.false_ne_true (hnew.symm.trans hw)
    · rcases (DistrictState.energised_iff _).mp he with hst | hst | hst | hst
      · exact hramping hst
      · exact hproving hst
      · exact hlive hst
      · exact hreversing hst
  · rfl

/-- The check error that the POLL takes at d (R21, R22). -/
theorem OnlyAt.checkTaken_channelsPolled (hd : ¬s.passes d) : ∃ st, CheckTaken d st (s.channelsPolled k)
    ∧ (s.queue.Nodup → st = if (s.dist d).state = .locked then .locked else .checkHold) := by
  obtain ⟨before, after, hsplit⟩ := List.append_of_mem (List.mem_finRange c)
  have hnodup : c ∉ before ++ after := (List.nodup_cons.mp (List.perm_middle.nodup_iff.mp
    (hsplit ▸ List.nodup_finRange 4))).1
  have hbefore : Polled s (before.foldl (State.pollChannel k) s) := polled_foldl_pollChannel (fun b hb =>
    h.passes_of_other (by rintro rfl; exact hnodup (List.mem_append_left _ hb)))
  have hfold : s.channelsPolled k =
      after.foldl (State.pollChannel k) (State.pollChannel k (before.foldl (State.pollChannel k) s) c) := by
    rw [State.channelsPolled, indices, hsplit, List.foldl_append, List.foldl_cons]
  generalize before.foldl (State.pollChannel k) s = u at hbefore hfold
  have htaken := checkTaken_pollChannel ((hbefore.mapped k c).trans h.mapped) (mt (hbefore.passes_iff d).mp hd)
    (fun e he => (hbefore.passes_iff e).mpr (h.others e he))
  refine ⟨_, hfold ▸ htaken.polled (polled_foldl_pollChannel (fun _ _ e _ => htaken.passes e)), fun hq => ?_⟩
  rw [State.state_raiseCheck (by rw [hbefore.state]; exact hq), hbefore.dist d]

end

end

/-! ### The POLL as a whole -/

/-- The exchange that a POLL formed in s for node k begins. -/
def State.begun (s : State) (k : NodeId) : Exchange :=
  { node := k, timeBase := s.timeBase, commands := tabulate 4 (s.sentCommand k) }

section
variable (s : State) (k : NodeId)

theorem State.formPoll_eq : s.formPoll k = { s.channelsPolled k with exchange := some (s.begun k) } := rfl

theorem State.commands_begun (c : ChannelId) : (s.begun k).commands[c] = s.sentCommand k c := get_tabulate _ c

theorem State.dist_formPoll (d : DistrictId) : (s.formPoll k).dist d = (s.channelsPolled k).dist d := by
  rw [s.formPoll_eq k]
  rfl

/-- A POLL leaves the node table, the control words, the lines and the memory. -/
theorem State.formPoll_stands : (s.formPoll k).nodes = s.nodes ∧ (s.formPoll k).control = s.control
    ∧ (s.formPoll k).lines = s.lines ∧ (s.formPoll k).mem = s.mem := by
  have h : Calm s (s.channelsPolled k) := calm_foldl _ _ (fun c _ t => calm_pollChannel k t c) s
  rw [s.formPoll_eq k]
  exact ⟨h.nodes, h.control, h.lines, h.mem⟩

/-- With all contexts passing, a POLL begins its exchange and sets the polled marks. -/
theorem State.formPoll_of_passing (hp : ∀ d, s.passes d) :
    s.formPoll k = { s with exchange := (s.formPoll k).exchange, districts := (s.formPoll k).districts }
      ∧ ∀ d, (s.formPoll k).dist d = { s.dist d with polled := ((s.formPoll k).dist d).polled } := by
  have h : Polled s (s.channelsPolled k) := polled_foldl_pollChannel (fun _ _ d _ => hp d)
  refine ⟨?_, fun d => ?_⟩
  · rw [s.formPoll_eq k, h.state]
  · rw [s.dist_formPoll k d]
    exact h.dist d

end

/-! ### The round that opens (R109) -/

/-- s as an exchange with its next address finds it: with address 1, a round begins. -/
def State.roundOpened (s : State) : State := if s.nextNode = 0 then s.roundBegin else s

theorem State.slot_roundOpened (s : State) (n : SlotId) : s.roundOpened.slot n =
    if s.nextNode = 0 ∧ (s.slot n).state = .gathering then { s.slot n with roundBegun := true } else s.slot n := by
  unfold State.roundOpened
  by_cases h : s.nextNode = 0
  · simp only [h, if_true, true_and]
    exact get_tabulate _ n
  · simp only [h, if_false, false_and]

theorem State.roundOpened_eq (s : State) : s.roundOpened = { s with slots := s.roundOpened.slots } := by
  unfold State.roundOpened
  split <;> rfl

theorem exec_poll_eq {s : State} (hr : s.inReset = false) (hx : s.exchange = .none) :
    exec .poll s = .next (s.roundOpened.formPoll s.nextNode) := by
  have h : exec .poll s = .next (s.running State.beginExchange) := rfl
  rw [h, s.running_of_run _ hr, State.beginExchange, hx]
  rfl

/-- Settles O48: the channels formed before one change only polled marks where their districts pass, so each command is
that of its own district in the state of the POLL. -/
theorem pollCommandsFollowDistrictStates : Obligations.PollCommandsFollowDistrictStates := by
  unfold Obligations.PollCommandsFollowDistrictStates
  intro s hr hx
  obtain ⟨slots, hopened, hslot⟩ : ∃ slots, s.roundOpened = { s with slots := slots } ∧ ∀ n : SlotId, slots[n] =
      if s.nextNode = 0 ∧ (s.slot n).state = .gathering then { s.slot n with roundBegun := true } else s.slot n :=
    ⟨_, s.roundOpened_eq, s.slot_roundOpened⟩
  have hexec := exec_poll_eq hr hx
  rw [hopened] at hexec
  have hcommand := State.commands_begun { s with slots := slots } s.nextNode
  obtain ⟨hnodes, hcontrol, hlines, hmem⟩ := State.formPoll_stands { s with slots := slots } s.nextNode
  have hexchange : (State.formPoll { s with slots := slots } s.nextNode).exchange =
    some (State.begun { s with slots := slots } s.nextNode) := by rw [State.formPoll_eq]
  refine ⟨State.formPoll { s with slots := slots } s.nextNode, State.begun { s with slots := slots } s.nextNode, hexec,
    hexchange, rfl, rfl, hnodes, hcontrol, hlines, hmem, fun c => ?duty, fun c => ?withheld, fun hp c => ?passing,
    fun d c hv hn hc hothers hpass => ?single, fun hp => ?alone, Exchange.frame_spec _, rfl, crc8_append⟩
  case duty =>
    rw [hcommand]
    exact State.checkedCommand_proper _ _ c
  case withheld =>
    rw [hcommand]
    exact fun h => (State.sendsOwn_iff { s with slots := slots } _ c).mp (State.sendsOwn_of_sentCommand h)
  case passing =>
    rw [hcommand]
    exact State.sentCommand_of_all_passing hp
  case single =>
    have h : OnlyAt { s with slots := slots } s.nextNode c d := ⟨State.mapped_of_only hv hn hc hothers, hpass⟩
    rw [hcommand]
    refine ⟨fun hp => h.sentCommand_of_powered hp, fun hp => h.sentCommand_of_withheld hp,
      fun hp => ⟨h.sentCommand_of_failing hp, ?_⟩⟩
    obtain ⟨st, htaken, hst⟩ := h.checkTaken_channelsPolled hp
    rw [State.dist_formPoll]
    exact ⟨htaken.invalid, htaken.checkError, fun hnodup => htaken.state.trans (hst hnodup)⟩
  case alone =>
    obtain ⟨hstate, hdist⟩ := State.formPoll_of_passing { s with slots := slots } s.nextNode hp
    refine ⟨?_, hdist, fun n => ?_⟩
    · rw [hstate]
    · rw [hstate]; exact hslot n

end Sys2Proof.Machine
end

section
/-! SUPPORT. A new trip (R31 to R34): the energised state left, the entry to TRIPPED, the incident joined or opened. -/

namespace Sys2Proof.Machine

open Sys2Proof

/-! ### The energised state left (R32 step 1) -/

/-- Step 1 of R32 has been taken at d from u to t, and no other context has changed. -/
structure OffRamp (u t : State) (d : DistrictId) : Prop where
  leaves : LeavesRamp u t d
  others : ∀ e, e ≠ d → t.dist e = u.dist e

/-- What follows step 1 at d alone, leaving the engines, the feeds and the attempts. -/
theorem OffRamp.congr {u t v : State} {d : DistrictId} (h : OffRamp u t d) (he : v.engines = t.engines)
    (hf : v.feeds = t.feeds) (ha : (v.dist d).attempts = (t.dist d).attempts)
    (ho : ∀ e, e ≠ d → v.dist e = t.dist e) : OffRamp u v d := by
  obtain ⟨⟨⟨hnone, hsome⟩, hkept, hcounted⟩, hothers⟩ := h
  have hengine : v.engine = t.engine := funext fun i => by rw [State.engine, State.engine, he]
  have hfeed : v.feed = t.feed := funext fun k => by rw [State.feed, State.feed, hf]
  refine ⟨⟨⟨fun h => ?_, fun e h => ?_⟩, fun h => ?_, fun e h => ?_⟩, fun e hne => (ho e hne).trans (hothers e hne)⟩
  · rw [he, hf]; exact hnone h
  · rw [hengine, hfeed]; exact hsome e h
  · rw [ha]; exact hkept h
  · rw [ha]; exact hcounted e h

section
variable (u : State) (d : DistrictId)

/-- Leaving an energised state changes the engines, the feeds and the contexts alone. -/
theorem State.leaveEnergised_eq : u.leaveEnergised d =
    { u with
      engines := (u.leaveEnergised d).engines
      feeds := (u.leaveEnergised d).feeds
      districts := (u.leaveEnergised d).districts } := by
  unfold State.leaveEnergised
  split <;> rfl

/-- d's own context has its attempts changed at most. -/
theorem State.dist_leaveEnergised : (u.leaveEnergised d).dist d =
    { u.dist d with attempts := ((u.leaveEnergised d).dist d).attempts } := by
  unfold State.leaveEnergised
  split
  · next e _ =>
    have h : ((u.countAttempt d).freeEngine e).dist d = (u.countAttempt d).dist d := rfl
    rw [h, State.countAttempt, State.dist_modDist_same]
    split <;> rfl
  · rfl

theorem offRamp_leaveEnergised : OffRamp u (u.leaveEnergised d) d := by
  have hfreed := engineFreed_freeEngineOf u d
  unfold State.freeEngineOf at hfreed
  unfold State.leaveEnergised
  split
  · next e he =>
    rw [he] at hfreed
    have hcounted : (((u.countAttempt d).freeEngine e).dist d).attempts =
        if (u.dist d).mark then min ((u.dist d).attempts + 1) u.control.limit else (u.dist d).attempts := by
      have h : ((u.countAttempt d).freeEngine e).dist d = (u.countAttempt d).dist d := rfl
      rw [h, State.countAttempt, State.dist_modDist_same]
      split <;> rfl
    refine ⟨⟨hfreed, fun hnone => ?_, fun _ _ => hcounted⟩, fun f hf => State.dist_modDist_other u d _ f hf⟩
    rw [he] at hnone
    cases hnone
  · next he =>
    refine ⟨⟨⟨fun _ => ⟨rfl, rfl⟩, fun e h => ?_⟩, fun _ => rfl, fun e h => ?_⟩, fun _ _ => rfl⟩
    all_goals
      rw [he] at h
      cases h

end

/-! ### The entry to TRIPPED (R32 step 2) -/

/-- u with d tripped by the cut c: off its ramp, in TRIPPED with the flag latched and the cause recorded. -/
def State.trippedBy (u : State) (d : DistrictId) (c : Cut) : State := (u.leaveEnergised d).enterTripped d c

section
variable (u : State) (d : DistrictId) (c : Cut)

theorem State.trippedBy_eq : u.trippedBy d c =
    { u with
      engines := (u.trippedBy d c).engines
      feeds := (u.trippedBy d c).feeds
      districts := (u.trippedBy d c).districts } := by
  rw [State.trippedBy, State.leaveEnergised_eq]
  rfl

/-- The context of a district that trips, its role and its attempts aside. -/
theorem State.dist_trippedBy : (u.trippedBy d c).dist d =
    { u.dist d with
      state := .tripped
      level := 0
      mark := false
      role := ((u.trippedBy d c).dist d).role
      attempts := ((u.trippedBy d c).dist d).attempts
      holdoffTimer := .none
      provingTimer := .none
      quietTimer := .none
      lastCause := some c.cause
      flags := { (u.dist d).flags with tripped := true } } := by
  rw [State.trippedBy, State.dist_enterTripped, State.dist_leaveEnergised]
  rfl

theorem offRamp_trippedBy : OffRamp u (u.trippedBy d c) d := by
  refine (offRamp_leaveEnergised u d).congr rfl rfl ?_ (fun e he => ?_)
  · rw [State.trippedBy, State.dist_enterTripped]
    rfl
  · exact (State.dist_modDist_other _ d _ e he).trans (State.dist_modDist_other _ d _ e he)

/-- A trip leaves every context's intent words. -/
theorem State.words_trippedBy (e : DistrictId) : ((u.trippedBy d c).dist e).words = (u.dist e).words := by
  by_cases he : e = d
  · rw [he, State.dist_trippedBy]
  · rw [(offRamp_trippedBy u d c).others e he]

theorem State.slots_trippedBy : (u.trippedBy d c).slots = u.slots := by rw [State.trippedBy_eq]

theorem State.slot_trippedBy (n : SlotId) : (u.trippedBy d c).slot n = u.slot n := by
  rw [State.slot, State.slots_trippedBy, State.slot]

theorem State.freeSlot_trippedBy : (u.trippedBy d c).freeSlot = u.freeSlot := by
  simp only [State.freeSlot, State.slot_trippedBy]

end

/-! ### The incident joined (R33) -/

/-- Qualifying is a matter of the slots, the gathering window, the adjacency table and the contexts' words. -/
theorem Qualifies.congr {s t : State} (hs : t.slots = s.slots) (hc : t.control = s.control)
    (ha : t.adjacency = s.adjacency) (hw : ∀ e, (t.dist e).words = (s.dist e).words) (d : DistrictId) (a : Stamp)
    (n : SlotId) : Qualifies t d a n ↔ Qualifies s d a n := by
  have hfeed (e : DistrictId) : (t.dist e).feed = (s.dist e).feed := by rw [District.feed, District.feed, hw]
  have hslot : t.slot n = s.slot n := by rw [State.slot, hs, State.slot]
  simp only [Qualifies, hslot, hc, ha, hfeed]

theorem Joins.congr {s t : State} (hs : t.slots = s.slots) {d : DistrictId} {a : Stamp}
    (hq : ∀ n, Qualifies t d a n ↔ Qualifies s d a n) (n : SlotId) : Joins t d a n ↔ Joins s d a n := by
  have hslot (m : SlotId) : t.slot m = s.slot m := by rw [State.slot, hs, State.slot]
  simp only [Joins, hslot, hq]

theorem State.qualifies_trippedBy (u : State) (d : DistrictId) (c : Cut) (a : Stamp) (n : SlotId) :
    Qualifies (u.trippedBy d c) d a n ↔ Qualifies u d a n :=
  Qualifies.congr (u.slots_trippedBy d c) (by rw [State.trippedBy_eq]) (by rw [State.trippedBy_eq])
    (u.words_trippedBy d c) d a n

/-- Of the incident found so far and slot n, the one whose anchor is earlier (R33). -/
def State.earlier (s : State) (a : Stamp) (best : Option SlotId) (n : SlotId) : Option SlotId :=
  match best with
  | .none => some n
  | some b => if stampOffset a (s.slot b).anchor < stampOffset a (s.slot n).anchor then some n else some b

theorem State.joinTarget_eq (s : State) (d : DistrictId) (a : Stamp) :
    s.joinTarget d a = ((indices 4).filter (s.qualifies d a)).foldl (s.earlier a) .none := rfl

/-- Slot n goes before slot m in the choice of R33. -/
def State.Before (s : State) (a : Stamp) (n m : SlotId) : Prop :=
  stampOffset a (s.slot m).anchor < stampOffset a (s.slot n).anchor
    ∨ stampOffset a (s.slot m).anchor = stampOffset a (s.slot n).anchor ∧ n < m

/-- Slots taken in their order, the one that goes before the others is found. -/
theorem State.foldl_earlier {s : State} {a : Stamp} {n : SlotId} (l : List SlotId) (b : SlotId)
    (hl : (b :: l).Pairwise (· < ·)) (hn : n ∈ b :: l) (hbefore : ∀ m ∈ b :: l, m ≠ n → s.Before a n m) :
    l.foldl (s.earlier a) (some b) = some n := by
  induction l generalizing b with
  | nil => rw [List.mem_singleton.mp hn]; rfl
  | cons x l ih =>
    obtain ⟨hb, hx, hrest⟩ : (∀ m ∈ x :: l, b < m) ∧ (∀ m ∈ l, x < m) ∧ l.Pairwise (· < ·) := by
      simpa only [List.pairwise_cons] using hl
    have hbx := hb x List.mem_cons_self
    rw [List.foldl_cons, State.earlier]
    split
    · next hlt =>
      have hnb : n ≠ b := by
        rintro rfl
        rcases hbefore x (by simp) (ne_of_gt hbx) with h | ⟨h, -⟩ <;> omega
      exact ih x (List.pairwise_cons.mpr ⟨hx, hrest⟩) ((List.mem_cons.mp hn).resolve_left hnb)
        (fun m hm => hbefore m (List.mem_cons_of_mem _ hm))
    · next hle =>
      have hnx : n ≠ x := by
        rintro rfl
        rcases hbefore b (by simp) (ne_of_lt hbx) with h | ⟨-, h⟩
        · exact hle h
        · exact absurd h (not_lt_of_gt hbx)
      have hsub : ∀ m ∈ b :: l, m ∈ b :: x :: l := fun m hm => by
        rcases List.mem_cons.mp hm with h | h <;> simp [h]
      refine ih b (List.pairwise_cons.mpr ⟨fun m hm => hb m (List.mem_cons_of_mem _ hm), hrest⟩) ?_
        (fun m hm => hbefore m (hsub m hm))
      rcases List.mem_cons.mp hn with h | h
      · simp [h]
      · simp [(List.mem_cons.mp h).resolve_left hnx]

section
variable {s : State} {d : DistrictId} {a : Stamp}

theorem State.mem_qualifying (n : SlotId) : n ∈ (indices 4).filter (s.qualifies d a) ↔ Qualifies s d a n := by
  rw [List.mem_filter, s.qualifies_iff]
  exact and_iff_right (List.mem_finRange n)

theorem State.qualifying_sorted : ((indices 4).filter (s.qualifies d a)).Pairwise (· < ·) :=
  (List.pairwise_lt_finRange 4).filter _

theorem State.joinTarget_of_joins {n : SlotId} (h : Joins s d a n) : s.joinTarget d a = some n := by
  obtain ⟨hq, hbefore⟩ := h
  have hn := (State.mem_qualifying n).mpr hq
  have hfirst : ∀ m ∈ (indices 4).filter (s.qualifies d a), m ≠ n → s.Before a n m := fun m hm hne =>
    hbefore m hne ((State.mem_qualifying m).mp hm)
  have hsorted := State.qualifying_sorted (s := s) (d := d) (a := a)
  rw [State.joinTarget_eq]
  generalize (indices 4).filter (s.qualifies d a) = l at hn hfirst hsorted
  cases l with
  | nil => cases hn
  | cons b l => exact State.foldl_earlier l b hsorted hn hfirst

theorem State.joinTarget_of_unqualified (h : ∀ n, ¬Qualifies s d a n) : s.joinTarget d a = .none := by
  have hnone : (indices 4).filter (s.qualifies d a) = [] :=
    List.eq_nil_iff_forall_not_mem.mpr (fun n hn => h n ((State.mem_qualifying n).mp hn))
  rw [State.joinTarget_eq, hnone]
  rfl

theorem State.joinTarget_ne_none {n : SlotId} (h : Qualifies s d a n) : s.joinTarget d a ≠ .none := by
  have hn := (State.mem_qualifying n).mpr h
  have hfound (l : List SlotId) (b : Option SlotId) (hb : b ≠ .none) : l.foldl (s.earlier a) b ≠ .none :=
    foldl_keeps (P := (· ≠ .none)) (s.earlier a) l (fun m _ b _ => by
      unfold State.earlier
      split
      · exact Option.some_ne_none m
      · split <;> exact Option.some_ne_none _) b hb
  rw [State.joinTarget_eq]
  generalize (indices 4).filter (s.qualifies d a) = l at hn
  cases l with
  | nil => cases hn
  | cons b l => exact hfound l (some b) (Option.some_ne_none b)

theorem State.freeSlot_ne_none {n : SlotId} (h : (s.slot n).state = .free) : s.freeSlot ≠ .none := by
  intro hnone
  exact (List.find?_eq_none.mp hnone n (List.mem_finRange n)) (by rw [h]; rfl)

theorem State.freeSlot_of_none (h : ∀ n, (s.slot n).state ≠ .free) : s.freeSlot = .none :=
  List.find?_eq_none.mpr (fun n _ hn => h n (by simpa using hn))

end

/-! ### The three ends of a new trip (R32 step 3) -/

/-- d has become a member of slot n's incident from v to t; the slots and the next incident id aside, nothing else has
changed. -/
structure Enrolled (v t : State) (d : DistrictId) (n : SlotId) : Prop where
  state : t = { v with slots := t.slots, nextId := t.nextId, districts := t.districts }
  dist : t.dist d = { v.dist d with incidentSlot := some n, lastIncident := some (t.slot n).id, role := .none }
  others : ∀ e, e ≠ d → t.dist e = v.dist e

section
variable (v : State) (n : SlotId) (m : Member)

theorem enrolled_join : Enrolled v (v.join n m) m.district n :=
  ⟨rfl, State.dist_modDist_same _ m.district _, fun e he => State.dist_modDist_other _ m.district _ e he⟩

theorem enrolled_openSlot : Enrolled v (v.openSlot n m) m.district n :=
  ⟨rfl, State.dist_modDist_same _ m.district _, fun e he => State.dist_modDist_other _ m.district _ e he⟩

theorem State.slot_join_same : (v.join n m).slot n = { v.slot n with
    members := (v.slot n).members ++ [m]
    anySaturated := (v.slot n).anySaturated || m.saturated } :=
  get_put_same v.slots n _

theorem State.slot_join_other {k : SlotId} (hk : k ≠ n) : (v.join n m).slot k = v.slot k :=
  get_put_other v.slots n k _ hk

theorem State.slot_openSlot_other {k : SlotId} (hk : k ≠ n) : (v.openSlot n m).slot k = v.slot k :=
  get_put_other v.slots n k _ hk

end

section
variable (u : State) (d : DistrictId) (c : Cut)

/-- The member entry of d's new trip. -/
def State.entryOf : Member := newMember d c ((u.dist d).state == .proving)

theorem State.joinTarget_trippedBy : (u.trippedBy d c).joinTarget d c.stamp = u.joinTarget d c.stamp := by
  have hqualifies : (u.trippedBy d c).qualifies d c.stamp = u.qualifies d c.stamp := funext fun n => by
    rw [Bool.eq_iff_iff, State.qualifies_iff, State.qualifies_iff]
    exact u.qualifies_trippedBy d c c.stamp n
  have hearlier : (u.trippedBy d c).earlier c.stamp = u.earlier c.stamp := funext fun best => funext fun n => by
    cases best with
    | none => rfl
    | some b => simp only [State.earlier, State.slot_trippedBy]
  rw [State.joinTarget_eq, State.joinTarget_eq, hqualifies, hearlier]

theorem State.newTrip_of_target {n : SlotId} (h : u.joinTarget d c.stamp = some n) :
    u.newTrip d c = (u.trippedBy d c).join n (u.entryOf d c) := by
  rw [← u.joinTarget_trippedBy d c] at h
  rw [State.trippedBy] at h
  rw [State.newTrip, h]
  rfl

theorem State.newTrip_of_opened {n : SlotId} (h : u.joinTarget d c.stamp = .none) (hn : u.freeSlot = some n) :
    u.newTrip d c = (u.trippedBy d c).openSlot n (u.entryOf d c) := by
  rw [← u.joinTarget_trippedBy d c] at h
  rw [← u.freeSlot_trippedBy d c] at hn
  rw [State.trippedBy] at h hn
  rw [State.newTrip, h, hn]
  rfl

theorem State.newTrip_of_lone (h : u.joinTarget d c.stamp = .none) (hn : u.freeSlot = .none) :
    u.newTrip d c = (u.trippedBy d c).solitary d c := by
  rw [← u.joinTarget_trippedBy d c] at h
  rw [← u.freeSlot_trippedBy d c] at hn
  rw [State.trippedBy] at h hn
  rw [State.newTrip, h, hn]
  rfl

/-- With an incident to join or a slot to open, d becomes a member of one (R33, R34). -/
theorem enrolled_newTrip (h : (∃ n, Qualifies u d c.stamp n) ∨ ∃ n, (u.slot n).state = .free) :
    ∃ n, Enrolled (u.trippedBy d c) (u.newTrip d c) d n := by
  cases hjoin : u.joinTarget d c.stamp with
  | some n =>
    rw [u.newTrip_of_target d c hjoin]
    exact ⟨n, enrolled_join _ n (u.entryOf d c)⟩
  | none =>
    obtain ⟨n, hfree⟩ : ∃ n, (u.slot n).state = .free :=
      h.resolve_left (fun ⟨_, hq⟩ => State.joinTarget_ne_none hq hjoin)
    obtain ⟨k, hk⟩ := Option.ne_none_iff_exists'.mp (State.freeSlot_ne_none hfree)
    rw [u.newTrip_of_opened d c hjoin hk]
    exact ⟨k, enrolled_openSlot _ k (u.entryOf d c)⟩

end

end Sys2Proof.Machine
end

section
/-! SUPPORT. A solitary cut (R35): what it records, and the close state that its district takes at once (R43, R56, R57). -/

namespace Sys2Proof.Machine

open Sys2Proof

/-! ### What a close state leaves of a context -/

/-- The incident, the cut data, the current and the count of a context stand. -/
structure District.CutKept (x y : District) : Prop where
  incidentSlot : y.incidentSlot = x.incidentSlot
  lastIncident : y.lastIncident = x.lastIncident
  lastCause : y.lastCause = x.lastCause
  current : y.current = x.current
  attempts : y.attempts = x.attempts
  tripped : y.flags.tripped = x.flags.tripped

/-- From w to t, d has entered states: its incident, cut data and count stand, and of other than d, the queue and the
marks nothing has changed. -/
structure Moved (w t : State) (d : DistrictId) : Prop where
  state : t = { w with queue := t.queue, corrections := t.corrections, districts := t.districts }
  dist : (w.dist d).CutKept (t.dist d)
  others : ∀ e, e ≠ d → t.dist e = w.dist e

section
variable {w t : State} {d : DistrictId}

theorem Moved.refl (w : State) (d : DistrictId) : Moved w w d := ⟨rfl, ⟨rfl, rfl, rfl, rfl, rfl, rfl⟩, fun _ _ => rfl⟩

theorem Moved.modDist (h : Moved w t d) {f : District → District} (hf : (t.dist d).CutKept (f (t.dist d))) :
    Moved w (t.modDist d f) d := by
  refine ⟨?_, ?_, fun e he => (State.dist_modDist_other t d f e he).trans (h.others e he)⟩
  · rw [h.state]
    rfl
  · rw [State.dist_modDist_same]
    exact ⟨hf.incidentSlot.trans h.dist.incidentSlot, hf.lastIncident.trans h.dist.lastIncident,
      hf.lastCause.trans h.dist.lastCause, hf.current.trans h.dist.current, hf.attempts.trans h.dist.attempts,
      hf.tripped.trans h.dist.tripped⟩

theorem Moved.enter (h : Moved w t d) (st : DistrictState) : Moved w (t.enter d st) d :=
  h.modDist ⟨rfl, rfl, rfl, rfl, rfl, rfl⟩

theorem Moved.queue (h : Moved w t d) (q : List DistrictId) : Moved w { t with queue := q } d :=
  ⟨by rw [h.state], h.dist, h.others⟩

theorem Moved.mark (h : Moved w t d) (p : IntentPos) : Moved w (t.mark p) d := by
  refine ⟨?_, by rw [State.dist_mark]; exact h.dist, fun e he => by rw [State.dist_mark]; exact h.others e he⟩
  unfold State.mark
  split
  · exact h.state
  · rw [h.state]

theorem Moved.flip (h : Moved w t d) : Moved w (t.flip d) d := by
  have hreversing : Moved w (t.enterReversing d) d := (h.modDist ⟨rfl, rfl, rfl, rfl, rfl, rfl⟩).enter .reversing
  unfold State.flip
  split
  · exact (hreversing.enter .queued).queue _
  · exact hreversing

end

/-! ### The close state of a district in no incident -/

/-- A role given up (R35). -/
def District.withoutRole (x : District) : District := { x with role := .none }

/-- w with the district d, in no incident, in its close state; STOPPED and LOCKOUT are entered with no role (R35). -/
def State.closeAlone (w : State) (d : DistrictId) : State :=
  if ((w.enterCloseState d).dist d).state = .stopped ∨ ((w.enterCloseState d).dist d).state = .lockout then
    (w.enterCloseState d).modDist d District.withoutRole
  else w.enterCloseState d

theorem State.solitary_eq (v : State) (d : DistrictId) (c : Cut) :
    v.solitary d c = (v.recordSolitary d c).closeAlone d := rfl

section
variable {w : State} {d : DistrictId} (hn : (w.dist d).incidentSlot = .none)
include hn

theorem State.enterLockout_of_lone : w.enterLockout d =
    (((w.enter d .lockout).modDist d District.latchLockout).setIntentOff d).mark (.district d 0) := by
  rw [State.enterLockout, hn]

/-- The context of a district in no incident that is locked out (R43). -/
theorem State.dist_enterLockout_of_lone : (w.enterLockout d).dist d =
    ((w.dist d).enter w.control .lockout).latchLockout.setWord 0 ((w.dist d).words[0] &&& 0xFFFC) := by
  rw [State.enterLockout_of_lone hn, State.dist_mark, State.dist_setIntentOff_same, State.dist_modDist_same,
    State.dist_enter_same]
  rfl

theorem State.mem_corrections_enterLockout (hv : (w.dist d).invalid = false) :
    IntentPos.district d 0 ∈ (w.enterLockout d).corrections := by
  rw [State.enterLockout_of_lone hn, State.mem_corrections_mark]
  refine .inr ⟨rfl, ?_⟩
  rw [State.ofInvalid, State.dist_setIntentOff_same, State.dist_modDist_same, State.dist_enter_same]
  exact hv

theorem moved_enterLockout : Moved w (w.enterLockout d) d := by
  rw [State.enterLockout_of_lone hn]
  exact ((((Moved.refl w d).enter .lockout).modDist ⟨rfl, rfl, rfl, rfl, rfl, rfl⟩).modDist
    ⟨rfl, rfl, rfl, rfl, rfl, rfl⟩).mark _

theorem moved_enterCloseState : Moved w (w.enterCloseState d) d := by
  unfold State.enterCloseState
  split
  · exact (Moved.refl w d).enter _
  · split
    · exact moved_enterLockout hn
    · split
      · exact (Moved.refl w d).flip
      all_goals exact (Moved.refl w d).enter _

theorem moved_closeAlone : Moved w (w.closeAlone d) d := by
  have h := moved_enterCloseState hn
  unfold State.closeAlone
  split
  · exact h.modDist ⟨rfl, rfl, rfl, rfl, rfl, rfl⟩
  · exact h

end

section
variable {w : State} {d : DistrictId}

theorem State.closeAlone_of_manual (hi : (w.dist d).intent = .onManual) :
    ((w.closeAlone d).dist d).state = .stopped ∧ ((w.closeAlone d).dist d).role = .none := by
  have hstate : ((w.enterCloseState d).dist d).state = .stopped := by
    rw [State.enterCloseState_of_manual hi, State.dist_enter_same]
    rfl
  rw [State.closeAlone, if_pos (.inl hstate), State.dist_modDist_same]
  exact ⟨hstate, rfl⟩

theorem State.closeAlone_of_limit (hn : (w.dist d).incidentSlot = .none) (hv : (w.dist d).invalid = false)
    (hi : (w.dist d).intent ≠ .onManual) (hl : (w.dist d).attempts = w.control.limit) :
    LockedOut (w.closeAlone d) d ∧ ((w.closeAlone d).dist d).role = .none := by
  have hdist := State.dist_enterLockout_of_lone hn
  have hstate : ((w.enterCloseState d).dist d).state = .lockout := by
    rw [State.enterCloseState_of_limit hi hl, hdist]
    rfl
  rw [State.closeAlone, if_pos (.inr hstate), State.enterCloseState_of_limit hi hl]
  refine ⟨⟨?_, ?_, ?_, ?_, State.mem_corrections_enterLockout hn hv⟩, ?_⟩
  all_goals rw [State.dist_modDist_same, hdist]
  · rfl
  · rfl
  · rfl
  · exact (congrArg intentOf (get_put_same (w.dist d).words 0 _)).trans (intentOf_clear _)
  · rfl

variable (hi : (w.dist d).intent ≠ .onManual) (hl : (w.dist d).attempts ≠ w.control.limit)
include hi hl

theorem State.closeAlone_of_holdoff (hr : (w.dist d).role ≠ .flip) : w.closeAlone d = w.enter d .holdoff := by
  have hstate : ((w.enter d .holdoff).dist d).state = .holdoff := by
    rw [State.dist_enter_same]
    rfl
  rw [State.closeAlone, State.enterCloseState_of_holdoff hi hl hr, if_neg (by rw [hstate]; decide)]

theorem State.closeAlone_of_free (hr : (w.dist d).role = .flip) (hh : w.hold = false)
    (hf : (w.feed (w.dist d).feed).state = .up) : w.closeAlone d = w.enterReversing d := by
  have hstate : ((w.enterReversing d).dist d).state = .reversing := by
    rw [State.dist_enterReversing]
    rfl
  rw [State.closeAlone, State.enterCloseState_of_flip hi hl hr, State.flip_of_free hh hf,
    if_neg (by rw [hstate]; decide)]

theorem State.closeAlone_of_barred (hr : (w.dist d).role = .flip)
    (hb : w.hold = true ∨ (w.feed (w.dist d).feed).state ≠ .up) :
    w.closeAlone d = (w.enterReversing d).returnToQueue d := by
  have hstate : (((w.enterReversing d).returnToQueue d).dist d).state = .queued := by
    have h : ((w.enterReversing d).returnToQueue d).dist d = ((w.enterReversing d).enter d .queued).dist d := rfl
    rw [h, State.dist_enter_same]
    rfl
  rw [State.closeAlone, State.enterCloseState_of_flip hi hl hr, State.flip_of_barred hb,
    if_neg (by rw [hstate]; decide)]

end

/-! ### The context of a flip from TRIPPED (R56, R57) -/

/-- A role is kept where d enters a state from TRIPPED. -/
theorem District.role_enter_of_tripped (c : Control) (st : DistrictState) {x : District} (h : x.state = .tripped) :
    (x.enter c st).role = x.role := by
  have hdrop : x.dropsRole = false := by simp [District.dropsRole, h]
  rw [District.enter, hdrop]
  rfl

section
variable {w : State} {d : DistrictId} (ht : (w.dist d).state = .tripped)
include ht

/-- The flip of a TRIPPED district: REVERSING with its role kept. -/
theorem State.enterReversing_of_tripped : ((w.enterReversing d).dist d).flags.flipped = true
    ∧ ((w.enterReversing d).dist d).polarity ≠ (w.dist d).polarity ∧ ((w.enterReversing d).dist d).mark = true
    ∧ ((w.enterReversing d).dist d).state = .reversing ∧ ((w.enterReversing d).dist d).level = 16
    ∧ ((w.enterReversing d).dist d).role = (w.dist d).role := by
  rw [State.dist_enterReversing]
  exact ⟨rfl, Polarity.toggle_ne _, rfl, rfl, rfl, District.role_enter_of_tripped _ _ ht⟩

/-- A flip that is barred: back in the queue with the mark on, a solitary role ended (R57; log 18). -/
theorem State.returnToQueue_of_flip (hn : (w.dist d).incidentSlot = .none) :
    (((w.enterReversing d).returnToQueue d).dist d).flags.flipped = true
      ∧ (((w.enterReversing d).returnToQueue d).dist d).polarity ≠ (w.dist d).polarity
      ∧ (((w.enterReversing d).returnToQueue d).dist d).mark = true
      ∧ (((w.enterReversing d).returnToQueue d).dist d).state = .queued
      ∧ (((w.enterReversing d).returnToQueue d).dist d).level = 0
      ∧ (((w.enterReversing d).returnToQueue d).dist d).role = .none := by
  have hqueued : ((w.enterReversing d).returnToQueue d).dist d =
      ((w.enterReversing d).dist d).enter w.control .queued := State.dist_enter_same (w.enterReversing d) d .queued
  have hdrop : ((w.enterReversing d).dist d).dropsRole = true := by
    rw [District.dropsRole_iff, State.dist_enterReversing]
    exact ⟨hn, .inr rfl⟩
  obtain ⟨hflipped, hpolarity, hmark, -, -, -⟩ := State.enterReversing_of_tripped ht
  rw [hqueued]
  refine ⟨hflipped, hpolarity, hmark, rfl, rfl, ?_⟩
  rw [District.enter, hdrop]
  rfl

end

end Sys2Proof.Machine
end

section
/-! SUPPORT. A further cut of a member of a GATHERING incident (R36), and the re-trip of a member of a RECOVERING one
(R45). -/

namespace Sys2Proof.Machine

open Sys2Proof

/-! ### A further cut (R36) -/

section
variable (v : State) (n : SlotId) (d : DistrictId) (c : Cut)

/-- A cut of higher priority than d's entry replaces the entry's cause, stamp and saturated flag. -/
theorem State.furtherCut_of_higher
    (h : ∃ m ∈ (v.slot n).members, m.district = d ∧ m.cause.priority < c.cause.priority) :
    v.furtherCut n d c = ((v.modDist d District.latchTripped).modDist d (fun x =>
      { x with lastCause := some c.cause })).modSlot n (fun x =>
        { x with
          members := (v.slot n).members.map (fun m => if m.district = d then m.raise c else m)
          anySaturated := ((v.slot n).members.map (fun m =>
            if m.district = d then m.raise c else m)).any Member.saturated }) :=
  if_pos (by simpa [and_comm] using h)

/-- A cut of no higher priority leaves d's entry. -/
theorem State.furtherCut_of_not_higher
    (h : ∀ m ∈ (v.slot n).members, m.district = d → c.cause.priority ≤ m.cause.priority) :
    v.furtherCut n d c = v.modDist d District.latchTripped :=
  if_neg (by simpa using h)

/-- A further cut changes d's flag and cause, and the slots. -/
theorem State.furtherCut_spec : (v.furtherCut n d c).engines = v.engines ∧ (v.furtherCut n d c).feeds = v.feeds
    ∧ (v.furtherCut n d c).queue = v.queue
    ∧ (v.furtherCut n d c).dist d = { v.dist d with
        flags := { (v.dist d).flags with tripped := true }
        lastCause := ((v.furtherCut n d c).dist d).lastCause }
    ∧ ∀ e, e ≠ d → (v.furtherCut n d c).dist e = v.dist e := by
  have hlatched : (v.modDist d District.latchTripped).dist d = (v.dist d).latchTripped := v.dist_modDist_same d _
  by_cases h : ∃ m ∈ (v.slot n).members, m.district = d ∧ m.cause.priority < c.cause.priority
  · rw [v.furtherCut_of_higher n d c h, State.modSlot_dist, State.dist_modDist_same, hlatched]
    refine ⟨rfl, rfl, rfl, rfl, fun e he => ?_⟩
    rw [State.modSlot_dist, State.dist_modDist_other _ d _ e he, State.dist_modDist_other _ d _ e he]
  · have hnot : ∀ m ∈ (v.slot n).members, m.district = d → c.cause.priority ≤ m.cause.priority := fun m hm hd =>
      Nat.le_of_not_lt (fun hlt => h ⟨m, hm, hd, hlt⟩)
    rw [v.furtherCut_of_not_higher n d c hnot, hlatched]
    exact ⟨rfl, rfl, rfl, rfl, fun e he => v.dist_modDist_other d _ e he⟩

end

/-! ### A cut of a member of an open incident (R31) -/

/-- u with d, out of the energised states, in TRIPPED (R36). -/
def State.backToTripped (u : State) (d : DistrictId) : State := (u.leaveEnergised d).enter d .tripped

section
variable (u : State) (d : DistrictId)

theorem offRamp_backToTripped : OffRamp u (u.backToTripped d) d := by
  refine (offRamp_leaveEnergised u d).congr rfl rfl ?_ (fun e he => State.dist_modDist_other _ d _ e he)
  rw [State.backToTripped, State.dist_enter_same]
  rfl

theorem State.backToTripped_eq : u.backToTripped d = { u with
    engines := (u.backToTripped d).engines
    feeds := (u.backToTripped d).feeds
    districts := (u.backToTripped d).districts } := by
  rw [State.backToTripped, State.leaveEnergised_eq]
  rfl

theorem State.dist_backToTripped : (u.backToTripped d).dist d = { u.dist d with
    state := .tripped
    level := 0
    mark := false
    role := ((u.backToTripped d).dist d).role
    attempts := ((u.backToTripped d).dist d).attempts
    holdoffTimer := .none
    provingTimer := .none
    quietTimer := .none } := by
  rw [State.backToTripped, State.dist_enter_same, State.dist_leaveEnergised]
  rfl

variable {u d} {n : SlotId} (hn : (u.dist d).incidentSlot = some n) (c : Cut)
include hn

theorem State.openSlotOf_of_open (h : (u.slot n).state.isOpen = true) : u.openSlotOf d = some n := by
  rw [State.openSlotOf, hn]
  exact if_pos h

theorem State.takeCut_of_tripped (hg : (u.slot n).state = .gathering) (ht : (u.dist d).state = .tripped) :
    u.takeCut d c = u.furtherCut n d c := by
  have hopen := State.openSlotOf_of_open hn (by rw [hg]; rfl)
  simp only [State.takeCut, hopen, hg, ht]

theorem State.takeCut_of_powered_again (hg : (u.slot n).state = .gathering)
    (ht : (u.dist d).state = .ramping ∨ (u.dist d).state = .proving ∨ (u.dist d).state = .live) :
    u.takeCut d c = (u.backToTripped d).furtherCut n d c := by
  have hopen := State.openSlotOf_of_open hn (by rw [hg]; rfl)
  rcases ht with ht | ht | ht
  all_goals simp only [State.takeCut, hopen, hg, ht, State.backToTripped]

theorem State.takeCut_of_elsewhere (hg : (u.slot n).state = .gathering) (ht : (u.dist d).state ≠ .tripped)
    (hramping : (u.dist d).state ≠ .ramping) (hproving : (u.dist d).state ≠ .proving)
    (hlive : (u.dist d).state ≠ .live) : u.takeCut d c = u := by
  have hopen := State.openSlotOf_of_open hn (by rw [hg]; rfl)
  simp only [State.takeCut, hopen, hg]
  split
  case h_1 hs => exact absurd hs ht
  case h_2 hs => exact absurd hs hramping
  case h_3 hs => exact absurd hs hproving
  case h_4 hs => exact absurd hs hlive
  all_goals rfl

theorem State.takeCut_of_recovering (hr : (u.slot n).state = .recovering) :
    u.takeCut d c = if (u.dist d).state.energised then u.reTrip n d c else u := by
  have hopen := State.openSlotOf_of_open hn (by rw [hr]; rfl)
  simp only [State.takeCut, hopen, hr]

end

/-! ### A re-trip (R45) -/

section
variable (u : State) (n : SlotId) (d : DistrictId) (c : Cut)

theorem State.becomeSuspect_eq : u.becomeSuspect n d c = { u with
    engines := (u.becomeSuspect n d c).engines
    feeds := (u.becomeSuspect n d c).feeds
    slots := (u.becomeSuspect n d c).slots
    districts := (u.becomeSuspect n d c).districts } := by
  rw [State.becomeSuspect, State.leaveEnergised_eq]
  rfl

/-- d's context as a new suspect: its attempts aside, as in u with the flag, the cause and the role. -/
theorem State.dist_becomeSuspect : (u.becomeSuspect n d c).dist d = { u.dist d with
    attempts := ((u.becomeSuspect n d c).dist d).attempts
    role := .suspect
    lastCause := some c.cause
    flags := { (u.dist d).flags with tripped := true } } := by
  rw [State.becomeSuspect, State.modSlot_dist, State.setRole, State.modSlot_dist, State.dist_modDist_same,
    State.dist_modDist_same, State.dist_leaveEnergised]
  rfl

theorem offRamp_becomeSuspect : OffRamp u (u.becomeSuspect n d c) d := by
  refine (offRamp_leaveEnergised u d).congr rfl rfl ?_ (fun e he => ?_)
  · rw [State.becomeSuspect, State.modSlot_dist, State.setRole, State.modSlot_dist, State.dist_modDist_same,
      State.dist_modDist_same]
    rfl
  · rw [State.becomeSuspect, State.modSlot_dist, State.setRole, State.modSlot_dist,
      State.dist_modDist_other _ d _ e he, State.dist_modDist_other _ d _ e he]

theorem State.slot_leaveEnergised (k : SlotId) : (u.leaveEnergised d).slot k = u.slot k := by
  rw [State.slot, State.leaveEnergised_eq, State.slot]

theorem State.slot_becomeSuspect_same : (u.becomeSuspect n d c).slot n = { u.slot n with
    members := (u.slot n).members.map (fun m => if m.district = d then { m with role := .suspect } else m)
    suspects := (u.slot n).suspects.erase d ++ [d] } := by
  rw [State.becomeSuspect, State.slot_modSlot_same, State.setRole, State.slot_modSlot_same, State.modDist_slot,
    State.modDist_slot, State.slot_leaveEnergised]

theorem State.slot_becomeSuspect_other {k : SlotId} (hk : k ≠ n) : (u.becomeSuspect n d c).slot k = u.slot k := by
  rw [State.becomeSuspect, State.slot_modSlot_other _ n _ k hk, State.setRole, State.slot_modSlot_other _ n _ k hk,
    State.modDist_slot, State.modDist_slot, State.slot_leaveEnergised]

end

/-- From w to t, the suspect d of slot n has left the energised states for STOPPED, LOCKOUT or HOLDOFF. -/
structure ReTripped (w t : State) (n : SlotId) (d : DistrictId) : Prop where
  engines : t.engines = w.engines
  feeds : t.feeds = w.feeds
  queue : t.queue = w.queue
  kept : (w.dist d).CutKept (t.dist d)
  role : (t.dist d).role = (w.dist d).role
  level : (t.dist d).level = 0
  mark : (t.dist d).mark = false
  others : ∀ e, e ≠ d → t.dist e = w.dist e
  slot : t.slot n = { w.slot n with lockouts := (t.slot n).lockouts }
  slots : ∀ k, k ≠ n → t.slot k = w.slot k

section
variable {w : State} {n : SlotId} {d : DistrictId} (hn : (w.dist d).incidentSlot = some n)
include hn

theorem reTripped_enter {st : DistrictState} (hlevel : levelOnEntry st (w.dist d).level = 0)
    (hmark : markOnEntry st (w.dist d).mark = false) : ReTripped w (w.enter d st) n d := by
  refine ⟨rfl, rfl, rfl, ?_, ?_, ?_, ?_, fun e he => w.dist_enter_other d e st he, rfl, fun _ _ => rfl⟩
  all_goals rw [State.dist_enter_same]
  · exact ⟨rfl, rfl, rfl, rfl, rfl, rfl⟩
  · exact District.role_enter_of_member _ _ hn
  · exact hlevel
  · exact hmark

theorem State.enterLockout_eq_of_member : w.enterLockout d =
    { w.modSlot n (fun x => { x with lockouts := addDistrict x.lockouts d }) with
      corrections := (w.enterLockout d).corrections
      districts := (w.enterLockout d).districts } := by
  rw [State.enterLockout_of_member hn, State.mark]
  split <;> rfl

theorem reTripped_enterLockout : ReTripped w (w.enterLockout d) n d := by
  have heq := State.enterLockout_eq_of_member hn
  obtain ⟨hdist, -, -⟩ := State.enterLockout_spec hn
  refine ⟨by rw [heq]; rfl, by rw [heq]; rfl, by rw [heq]; rfl, ?_, ?_, ?_, ?_, fun e he => ?_, ?_, fun k hk => ?_⟩
  · rw [hdist]; exact ⟨rfl, rfl, rfl, rfl, rfl, rfl⟩
  · rw [hdist]; exact District.role_enter_of_member w.control .lockout hn
  · rw [hdist]; rfl
  · rw [hdist]; rfl
  · exact (aside_enterLockout he.symm w).dist
  · obtain ⟨lockouts, h⟩ := w.slot_enterLockout d n
    rw [h]
  · rw [heq]
    exact get_put_other w.slots n k _ hk

theorem State.lockouts_enterLockout :
    ((w.enterLockout d).slot n).lockouts = (w.slot n).lockouts ||| BitVec.twoPow 32 d.val := by
  have h : (w.enterLockout d).slot n =
      (w.modSlot n (fun x => { x with lockouts := addDistrict x.lockouts d })).slot n := by
    rw [State.enterLockout_eq_of_member hn]
    rfl
  rw [h, State.slot_modSlot_same]
  rfl

theorem lockedOut_enterLockout (hv : (w.dist d).invalid = false) : LockedOut (w.enterLockout d) d := by
  obtain ⟨hdist, -, hmarked⟩ := State.enterLockout_spec hn
  refine ⟨?_, ?_, ?_, ?_, hmarked hv⟩
  all_goals rw [hdist]
  · rfl
  · rfl
  · rfl
  · exact (congrArg intentOf (get_put_same (w.dist d).words 0 _)).trans (intentOf_clear _)

end

section
variable {u : State} {n : SlotId} {d : DistrictId} {c : Cut}

theorem State.reTrip_of_manual (hi : (u.dist d).intent = .onManual) :
    u.reTrip n d c = (u.becomeSuspect n d c).enter d .stopped := by
  have h : ((u.becomeSuspect n d c).dist d).intent = .onManual := by
    rw [State.dist_becomeSuspect]
    exact hi
  exact if_pos h

variable (hi : (u.dist d).intent ≠ .onManual)
include hi

theorem State.reTrip_of_limit (hl : ((u.becomeSuspect n d c).dist d).attempts = u.control.limit) :
    u.reTrip n d c = (u.becomeSuspect n d c).enterLockout d := by
  have h : ((u.becomeSuspect n d c).dist d).intent ≠ .onManual := by
    rw [State.dist_becomeSuspect]
    exact hi
  have hlimit : ((u.becomeSuspect n d c).dist d).attempts = (u.becomeSuspect n d c).control.limit := by
    rw [hl, State.becomeSuspect_eq]
  exact (if_neg h).trans (if_pos hlimit)

theorem State.reTrip_of_holdoff (hl : ((u.becomeSuspect n d c).dist d).attempts ≠ u.control.limit) :
    u.reTrip n d c = (u.becomeSuspect n d c).enter d .holdoff := by
  have h : ((u.becomeSuspect n d c).dist d).intent ≠ .onManual := by
    rw [State.dist_becomeSuspect]
    exact hi
  have hlimit : ((u.becomeSuspect n d c).dist d).attempts ≠ (u.becomeSuspect n d c).control.limit := by
    rw [State.becomeSuspect_eq]
    exact hl
  exact (if_neg h).trans (if_neg hlimit)

end

end Sys2Proof.Machine
end

section
/-! SUPPORT. The cuts of a REPORT in the terms of the state before it (R31 to R36, R45): the readings taken change d's
current and the engines' fresh readings alone, so what the cut meets is what stood there. -/

namespace Sys2Proof.Machine

open Sys2Proof

/-! ### The state in which a cut is taken (R119) -/

/-- What a cut at d reads of u is as in s, d's current being that of y. -/
structure Read (s u : State) (d : DistrictId) (y : ChannelReport) : Prop where
  dist : u.dist d = { s.dist d with current := y.current }
  others : ∀ e, e ≠ d → u.dist e = s.dist e
  slots : u.slots = s.slots
  control : u.control = s.control
  adjacency : u.adjacency = s.adjacency
  feeds : u.feeds = s.feeds
  queue : u.queue = s.queue
  ring : u.ring = s.ring
  hold : u.hold = s.hold
  nextId : u.nextId = s.nextId
  timeBase : u.timeBase = s.timeBase

theorem ReadingTaken.read {s u : State} {x : Exchange} {d : DistrictId} {y : ChannelReport}
    (h : ReadingTaken s x d y u) : Read s u d y := by
  obtain ⟨h, -⟩ := h
  have hdistricts : u.districts = put s.districts d { s.dist d with current := y.current } := by rw [h]
  refine ⟨?_, fun e he => ?_, ?_, ?_, ?_, ?_, ?_, ?_, ?_, ?_, ?_⟩
  · rw [State.dist, hdistricts, get_put_same]
  · rw [State.dist, hdistricts, get_put_other _ _ _ _ he]
    rfl
  all_goals rw [h]

section
variable {s u : State} {d : DistrictId} {y : ChannelReport} (h : Read s u d y)
include h

theorem Read.slot (n : SlotId) : u.slot n = s.slot n := by rw [State.slot, h.slots, State.slot]

theorem Read.words (e : DistrictId) : (u.dist e).words = (s.dist e).words := by
  by_cases he : e = d
  · rw [he, h.dist]
  · rw [h.others e he]

theorem Read.qualifies (a : Stamp) (n : SlotId) : Qualifies u d a n ↔ Qualifies s d a n :=
  Qualifies.congr h.slots h.control h.adjacency h.words d a n

theorem Read.joins (a : Stamp) (n : SlotId) : Joins u d a n ↔ Joins s d a n :=
  Joins.congr h.slots (h.qualifies a) n

theorem Read.energised_iff : (u.dist d).state.energised = true ↔ Energised s d := by
  rw [h.dist]
  exact DistrictState.energised_iff _

end

/-! ### What a trip leaves of the state -/

section
variable (u : State) (d : DistrictId) (c : Cut)

theorem State.trippedBy_stands : (u.trippedBy d c).control = u.control ∧ (u.trippedBy d c).nextId = u.nextId
    ∧ (u.trippedBy d c).timeBase = u.timeBase ∧ (u.trippedBy d c).queue = u.queue
    ∧ (u.trippedBy d c).ring = u.ring ∧ (u.trippedBy d c).hold = u.hold := by
  rw [State.trippedBy_eq]
  exact ⟨rfl, rfl, rfl, rfl, rfl, rfl⟩

theorem State.feed_trippedBy (k : FeedId) : ((u.trippedBy d c).feed k).state = (u.feed k).state :=
  (((calm_leaveEnergised u d).trans (calm_enterTripped _ d c)).feed k).state

/-- u with d tripped and its solitary cut recorded (R35). -/
def State.loneTrip : State := (u.trippedBy d c).recordSolitary d c

theorem State.loneTrip_eq : u.loneTrip d c = { u.trippedBy d c with
    ring := { (u.trippedBy d c).ring with missed := min ((u.trippedBy d c).ring.missed + 1) 255, solitaryLoss := true }
    districts := (u.loneTrip d c).districts } := rfl

theorem State.dist_loneTrip : (u.loneTrip d c).dist d = { (u.trippedBy d c).dist d with
    incidentSlot := .none
    lastIncident := .none
    role := solitaryRole c.cause (u.dist d).reversing } := by
  have hreversing : ((u.trippedBy d c).dist d).reversing = (u.dist d).reversing := by
    rw [District.reversing, State.words_trippedBy, District.reversing]
  rw [← hreversing]
  exact State.dist_modDist_same _ d _

theorem State.incidentSlot_loneTrip : ((u.loneTrip d c).dist d).incidentSlot = .none := by rw [State.dist_loneTrip]

theorem offRamp_loneTrip : OffRamp u (u.loneTrip d c) d := by
  refine (offRamp_trippedBy u d c).congr rfl rfl ?_ (fun e he => State.dist_modDist_other _ d _ e he)
  rw [State.dist_loneTrip]

theorem State.newTrip_of_solitary (hq : ∀ n, ¬Qualifies u d c.stamp n) (hf : ∀ n, (u.slot n).state ≠ .free) :
    u.newTrip d c = (u.loneTrip d c).closeAlone d :=
  u.newTrip_of_lone d c (State.joinTarget_of_unqualified hq) (State.freeSlot_of_none hf)

end

theorem OffRamp.enrolled {u v t : State} {d : DistrictId} {n : SlotId} (h : OffRamp u v d) (g : Enrolled v t d n) :
    OffRamp u t d :=
  h.congr (by rw [g.state]) (by rw [g.state]) (by rw [g.dist]) g.others

theorem OffRamp.moved {u w t : State} {d : DistrictId} (h : OffRamp u w d) (g : Moved w t d) : OffRamp u t d :=
  h.congr (by rw [g.state]) (by rw [g.state]) g.dist.attempts g.others

/-- What every new trip of d gives, joined, opened or solitary (R32). -/
theorem newTrip_taken (u : State) (d : DistrictId) (c : Cut) : OffRamp u (u.newTrip d c) d
    ∧ ((u.newTrip d c).dist d).flags.tripped = true ∧ ((u.newTrip d c).dist d).lastCause = some c.cause
    ∧ ((u.newTrip d c).dist d).current = (u.dist d).current := by
  by_cases hplace : (∃ n, Qualifies u d c.stamp n) ∨ ∃ n, (u.slot n).state = .free
  · obtain ⟨n, henrolled⟩ := enrolled_newTrip u d c hplace
    refine ⟨(offRamp_trippedBy u d c).enrolled henrolled, ?_, ?_, ?_⟩
    all_goals rw [henrolled.dist, State.dist_trippedBy]
  · obtain ⟨hq, hf⟩ := not_or.mp hplace
    rw [u.newTrip_of_solitary d c (not_exists.mp hq) (not_exists.mp hf)]
    have hmoved := moved_closeAlone (u.incidentSlot_loneTrip d c)
    refine ⟨(offRamp_loneTrip u d c).moved hmoved, ?_, ?_, ?_⟩
    · rw [hmoved.dist.tripped, State.dist_loneTrip, State.dist_trippedBy]
    · rw [hmoved.dist.lastCause, State.dist_loneTrip, State.dist_trippedBy]
    · rw [hmoved.dist.current, State.dist_loneTrip, State.dist_trippedBy]

/-! ### A new trip into an incident (R32 to R34) -/

section
variable {s u : State} {d : DistrictId} {y : ChannelReport} (h : Read s u d y) (c : Cut)
include h

theorem Read.entryOf_eq : u.entryOf d c =
    { district := d, cause := c.cause, stamp := c.stamp, saturated := c.saturated
      wasProving := decide ((s.dist d).state = .proving), withdrawn := false, role := .none } := by
  rw [State.entryOf, h.dist]
  rfl

theorem Read.newTrip_of_place (hp : (∃ n, Qualifies s d c.stamp n) ∨ ∃ n, (s.slot n).state = .free) :
    ((u.newTrip d c).dist d).state = .tripped ∧ ((u.newTrip d c).dist d).level = 0
      ∧ ((u.newTrip d c).dist d).mark = false ∧ ((u.newTrip d c).dist d).role = .none
      ∧ ((u.newTrip d c).dist d).flags = { (s.dist d).flags with tripped := true }
      ∧ ((u.newTrip d c).dist d).words = (s.dist d).words
      ∧ ((u.newTrip d c).dist d).polarity = (s.dist d).polarity
      ∧ (u.newTrip d c).queue = s.queue ∧ (u.newTrip d c).ring = s.ring := by
  obtain ⟨n, henrolled⟩ := enrolled_newTrip u d c (by simpa only [h.qualifies, h.slot] using hp)
  obtain ⟨-, -, -, hqueue, hring, -⟩ := u.trippedBy_stands d c
  rw [henrolled.dist, State.dist_trippedBy, h.dist]
  refine ⟨rfl, rfl, rfl, rfl, rfl, rfl, rfl, ?_, ?_⟩
  · rw [henrolled.state, hqueue, h.queue]
  · rw [henrolled.state, hring, h.ring]

theorem Read.newTrip_of_joins {n : SlotId} (hj : Joins s d c.stamp n) :
    ((u.newTrip d c).dist d).incidentSlot = some n
      ∧ ((u.newTrip d c).dist d).lastIncident = some (s.slot n).id ∧ (u.newTrip d c).nextId = s.nextId
      ∧ (u.newTrip d c).slot n = { s.slot n with
          members := (s.slot n).members ++ [u.entryOf d c]
          anySaturated := (s.slot n).anySaturated || (u.entryOf d c).saturated }
      ∧ ∀ k, k ≠ n → (u.newTrip d c).slot k = s.slot k := by
  have hslot (k : SlotId) : (u.trippedBy d c).slot k = s.slot k := (u.slot_trippedBy d c k).trans (h.slot k)
  have hjoined := State.slot_join_same (u.trippedBy d c) n (u.entryOf d c)
  have henrolled : Enrolled (u.trippedBy d c) ((u.trippedBy d c).join n (u.entryOf d c)) d n :=
    enrolled_join _ n (u.entryOf d c)
  obtain ⟨-, hnextId, -⟩ := u.trippedBy_stands d c
  rw [hslot] at hjoined
  rw [u.newTrip_of_target d c (State.joinTarget_of_joins ((h.joins c.stamp n).mpr hj)), henrolled.dist, hjoined]
  exact ⟨rfl, rfl, hnextId.trans h.nextId, rfl, fun k hk => (State.slot_join_other _ n _ hk).trans (hslot k)⟩

theorem Read.newTrip_of_free {n : SlotId} (hq : ∀ k, ¬Qualifies s d c.stamp k) (hn : (s.slot n).state = .free)
    (hlow : ∀ k, k < n → (s.slot k).state ≠ .free) :
    ((u.newTrip d c).dist d).incidentSlot = some n ∧ ((u.newTrip d c).dist d).lastIncident = some s.nextId
      ∧ (u.newTrip d c).nextId = s.nextId + 1
      ∧ (u.newTrip d c).slot n = { Slot.blank with
          state := .gathering
          id := s.nextId
          anchor := c.stamp
          openTime := s.timeBase
          members := [u.entryOf d c]
          timer := some (field s.control.gatheringWindow 0 5 * 1000)
          anySaturated := c.saturated }
      ∧ ∀ k, k ≠ n → (u.newTrip d c).slot k = s.slot k := by
  have hslot (k : SlotId) : (u.trippedBy d c).slot k = s.slot k := (u.slot_trippedBy d c k).trans (h.slot k)
  have hopened := State.slot_openSlot (u.trippedBy d c) n (u.entryOf d c)
  have henrolled : Enrolled (u.trippedBy d c) ((u.trippedBy d c).openSlot n (u.entryOf d c)) d n :=
    enrolled_openSlot _ n (u.entryOf d c)
  obtain ⟨hcontrol, hnextId, htime, -⟩ := u.trippedBy_stands d c
  rw [hcontrol, h.control, hnextId, h.nextId, htime, h.timeBase] at hopened
  have hfree : u.freeSlot = some n := by
    refine u.freeSlot_of_lowest (by rw [h.slot]; exact hn) (fun k hk => ?_)
    rw [h.slot]
    exact hlow k hk
  have hnone : u.joinTarget d c.stamp = .none :=
    State.joinTarget_of_unqualified (fun k hk => hq k ((h.qualifies c.stamp k).mp hk))
  rw [u.newTrip_of_opened d c hnone hfree, henrolled.dist, hopened]
  exact ⟨rfl, rfl, congrArg (· + 1) (hnextId.trans h.nextId), rfl,
    fun k hk => (State.slot_openSlot_other _ n _ hk).trans (hslot k)⟩

end

/-! ### A solitary cut (R35) -/

section
variable {s u : State} {d : DistrictId} {y : ChannelReport} (h : Read s u d y) (c : Cut)
include h

/-- The context, the queue and the ring of a solitary trip before its close state. -/
theorem Read.loneTrip_stands : (u.loneTrip d c).slots = s.slots ∧ (u.loneTrip d c).nextId = s.nextId
    ∧ (u.loneTrip d c).queue = s.queue ∧ (u.loneTrip d c).hold = s.hold ∧ (u.loneTrip d c).control = s.control
    ∧ (u.loneTrip d c).ring = { s.ring with missed := min (s.ring.missed + 1) 255, solitaryLoss := true } := by
  obtain ⟨hcontrol, hnextId, -, hqueue, hring, hhold⟩ := u.trippedBy_stands d c
  rw [State.loneTrip_eq, hring, h.ring]
  exact ⟨(u.slots_trippedBy d c).trans h.slots, hnextId.trans h.nextId, hqueue.trans h.queue, hhold.trans h.hold,
    hcontrol.trans h.control, rfl⟩

theorem Read.dist_loneTrip : (u.loneTrip d c).dist d = { s.dist d with
    current := y.current
    state := .tripped
    level := 0
    mark := false
    role := solitaryRole c.cause (s.dist d).reversing
    attempts := ((u.loneTrip d c).dist d).attempts
    holdoffTimer := .none
    provingTimer := .none
    quietTimer := .none
    lastCause := some c.cause
    flags := { (s.dist d).flags with tripped := true }
    incidentSlot := .none
    lastIncident := .none } := by
  rw [State.dist_loneTrip, State.dist_trippedBy, h.dist]
  rfl

theorem Read.intent_loneTrip : ((u.loneTrip d c).dist d).intent = (s.dist d).intent := by
  rw [h.dist_loneTrip]
  rfl

theorem Read.feed_loneTrip :
    ((u.loneTrip d c).feed ((u.loneTrip d c).dist d).feed).state = (s.feed (s.dist d).feed).state := by
  have hfeed (k : FeedId) : ((u.loneTrip d c).feed k).state = (s.feed k).state := by
    have hu : u.feed k = s.feed k := by rw [State.feed, h.feeds, State.feed]
    rw [← hu]
    exact u.feed_trippedBy d c k
  rw [hfeed, h.dist_loneTrip]
  rfl

/-- The queue of a barred flip: d at its return place (R66). -/
theorem Read.returnPlace_flip : ∃ before after : List DistrictId, ReturnPlace s d before after
    ∧ (((u.loneTrip d c).enterReversing d).returnToQueue d).queue = before ++ d :: after := by
  obtain ⟨before, after, hplace, hreturn⟩ := ((u.loneTrip d c).enterReversing d).returnToQueue_place d
  obtain ⟨-, -, hqueue, -⟩ := h.loneTrip_stands c
  have hwords (e : DistrictId) : (((u.loneTrip d c).enterReversing d).dist e).words = (s.dist e).words := by
    by_cases he : e = d
    · rw [he, State.dist_enterReversing, h.dist_loneTrip]
      rfl
    · have hmoved := (State.dist_modDist_other _ d (District.enter (u.loneTrip d c).control .reversing) e he).trans
        (State.dist_modDist_other (u.loneTrip d c) d
          (fun x => ({ x with polarity := x.polarity.toggle } : District).latchFlipped) e he)
      have hrest := ((offRamp_loneTrip u d c).others e he).trans (h.others e he)
      exact congrArg District.words (hmoved.trans hrest)
  refine ⟨before, after, hplace.congr (t := s) hqueue.symm (fun e => ?_), by rw [hreturn]⟩
  rw [District.priority, District.priority, hwords]

end

theorem solitaryRole_of_undervoltage (b : Bool) : solitaryRole .undervoltage b = .follower := rfl

theorem solitaryRole_of_fault {k : Cause} (h : k ≠ .undervoltage) (b : Bool) :
    solitaryRole k b = if b then .flip else .suspect := by
  cases k with
  | undervoltage => exact absurd rfl h
  | _ => rfl

end Sys2Proof.Machine
end

section
/-! PROOF. O50: a cut that a REPORT offers is taken by its district's state and membership (R31 to R36, R45, R56, R57). -/

namespace Sys2Proof.Machine

open Sys2Proof

/-! ### The REPORT is its one cut (R116, R119, R120) -/

section
variable {s : State} {r : Report} {x : Exchange} {d : DistrictId} {c : ChannelId} {y : ChannelReport}

/-- The REPORT of a PRESENT node that offers d a cut: the readings, which bring nothing else, and then the cut. -/
theorem exec_report_of_cut (hg : GoodAnswer s x r) (hk : (s.node x.node).state = .present) (ha : AloneAt s x.node c d)
    (hp : s.passes d) (hy : y = reportChannel r c) (hn : y.newCut = true) :
    exec (.report r) s = .next (((s.answeredBy x r).withReading d y).finish d
      (((s.answeredBy x r).withReading d y).takeCut d (y.cut x.timeBase))) := by
  have ha' : AloneAt (s.answeredBy x r) x.node c d := ha
  have hp' : (s.answeredBy x r).passes d := hp
  have hunconfirmed : ¬(s.answeredBy x r).confirms d y := fun ⟨_, _, _, _, hnone⟩ => by
    rw [hn] at hnone
    cases hnone
  subst hy
  rw [hg.exec_of_present hk ha, State.takeChannel_of_cut ha' State.claim x.timeBase hn,
    State.claim_of_passes _ d _ hp', State.takeReadings_of_unconfirmed _ d _ hunconfirmed, State.finish_reading,
    State.claim_of_passes _ d _ (State.passes_withReading _ d _ hp')]

end

section
variable {s u : State} {d : DistrictId} {y : ChannelReport} (h : Read s u d y) (c : Cut)
include h

/-! ### A district in no incident -/

theorem Read.takeCut_of_unpowered (hn : (s.dist d).incidentSlot = .none) (he : ¬Energised s d) : u.takeCut d c = u := by
  have hopen : u.openSlotOf d = .none := by rw [State.openSlotOf, h.dist, hn]
  rw [State.takeCut, hopen]
  exact if_neg (mt h.energised_iff.mp he)

theorem Read.takeCut_of_solo (hn : (s.dist d).incidentSlot = .none) (he : Energised s d) :
    u.takeCut d c = u.newTrip d c :=
  State.takeCut_of_solo u d c (by rw [h.dist]; exact hn) (h.energised_iff.mpr he)

section
variable (hi : (s.dist d).intent ≠ .onManual) (hl : ((u.loneTrip d c).dist d).attempts ≠ s.control.limit)
include hi hl

/-- A solitary fault of a reversing district: its flip, or, where that is barred, its return to the queue. -/
theorem Read.closeAlone_of_flip (hfault : c.cause ≠ .undervoltage) (hr : (s.dist d).reversing = true) :
    (((u.loneTrip d c).closeAlone d).dist d).flags.flipped = true
      ∧ (((u.loneTrip d c).closeAlone d).dist d).polarity ≠ (s.dist d).polarity
      ∧ (((u.loneTrip d c).closeAlone d).dist d).mark = true
      ∧ (s.hold = false ∧ (s.feed (s.dist d).feed).state = .up →
        (((u.loneTrip d c).closeAlone d).dist d).state = .reversing
          ∧ (((u.loneTrip d c).closeAlone d).dist d).level = 16
          ∧ (((u.loneTrip d c).closeAlone d).dist d).role = .flip
          ∧ ((u.loneTrip d c).closeAlone d).queue = s.queue)
      ∧ (s.hold = true ∨ (s.feed (s.dist d).feed).state ≠ .up →
        (((u.loneTrip d c).closeAlone d).dist d).state = .queued
          ∧ (((u.loneTrip d c).closeAlone d).dist d).level = 0
          ∧ (((u.loneTrip d c).closeAlone d).dist d).role = .none
          ∧ ∃ before after : List DistrictId, ReturnPlace s d before after
            ∧ ((u.loneTrip d c).closeAlone d).queue = before ++ d :: after) := by
  obtain ⟨-, -, hqueue, hhold, hcontrol, -⟩ := h.loneTrip_stands c
  have hdist := h.dist_loneTrip c
  have hrole : ((u.loneTrip d c).dist d).role = .flip := by
    rw [hdist, solitaryRole_of_fault hfault, hr]
    rfl
  have htripped : ((u.loneTrip d c).dist d).state = .tripped := by rw [hdist]
  have hpolarity : ((u.loneTrip d c).dist d).polarity = (s.dist d).polarity := by rw [hdist]
  have hintent := (h.intent_loneTrip c).symm ▸ hi
  rw [← hcontrol] at hl
  rw [← hhold, ← h.feed_loneTrip c, ← hpolarity, ← hqueue]
  by_cases hb : (u.loneTrip d c).hold = true ∨
      ((u.loneTrip d c).feed ((u.loneTrip d c).dist d).feed).state ≠ .up
  · obtain ⟨hflipped, hp, hmark, hstate, hlevel, hnone⟩ :=
      State.returnToQueue_of_flip htripped (u.incidentSlot_loneTrip d c)
    rw [State.closeAlone_of_barred hintent hl hrole hb]
    refine ⟨hflipped, hp, hmark, fun ⟨hh, hf⟩ => ?_, fun _ => ⟨hstate, hlevel, hnone, h.returnPlace_flip c⟩⟩
    rcases hb with hb | hb
    · exact absurd (hh.symm.trans hb) Bool.false_ne_true
    · exact absurd hf hb
  · obtain ⟨hh, hf⟩ := not_or.mp hb
    obtain ⟨hflipped, hp, hmark, hstate, hlevel, hkept⟩ := State.enterReversing_of_tripped htripped
    rw [State.closeAlone_of_free hintent hl hrole (eq_false_of_ne_true hh) (not_not.mp hf)]
    exact ⟨hflipped, hp, hmark, fun _ => ⟨hstate, hlevel, hkept.trans hrole, rfl⟩, fun hbar => absurd hbar hb⟩

/-- Any other solitary cut: HOLDOFF, as SUSPECT or FOLLOWER. -/
theorem Read.closeAlone_of_holdoff (hcase : c.cause = .undervoltage ∨ (s.dist d).reversing = false) :
    (((u.loneTrip d c).closeAlone d).dist d).state = .holdoff
      ∧ (((u.loneTrip d c).closeAlone d).dist d).level = 0 ∧ (((u.loneTrip d c).closeAlone d).dist d).mark = false
      ∧ (((u.loneTrip d c).closeAlone d).dist d).role = (if c.cause = .undervoltage then .follower else .suspect)
      ∧ (((u.loneTrip d c).closeAlone d).dist d).holdoffTimer = some
          (min (field s.control.holdoffBase 0 8 * 2 ^ ((u.loneTrip d c).dist d).attempts) 255 * 100000)
      ∧ ((u.loneTrip d c).closeAlone d).queue = s.queue := by
  obtain ⟨-, -, hqueue, -, hcontrol, -⟩ := h.loneTrip_stands c
  have hdist := h.dist_loneTrip c
  have hrole : ((u.loneTrip d c).dist d).role = if c.cause = .undervoltage then .follower else .suspect := by
    rw [hdist]
    by_cases hu : c.cause = .undervoltage
    · rw [if_pos hu, hu]
      rfl
    · rw [if_neg hu, solitaryRole_of_fault hu, hcase.resolve_left hu]
      rfl
  have htripped : ((u.loneTrip d c).dist d).state = .tripped := by rw [hdist]
  have hintent := (h.intent_loneTrip c).symm ▸ hi
  rw [← hcontrol] at hl
  rw [State.closeAlone_of_holdoff hintent hl (by rw [hrole]; split <;> decide), State.dist_enter_same, ← hcontrol]
  exact ⟨rfl, rfl, rfl, (District.role_enter_of_tripped _ _ htripped).trans hrole, rfl, hqueue⟩

end

end

/-! ### A member of a GATHERING incident (R36) -/

/-- In v, d is TRIPPED, and what a further cut reads and leaves is as in s. -/
structure TrippedIn (s v : State) (d : DistrictId) : Prop where
  state : (v.dist d).state = .tripped
  flags : (v.dist d).flags = (s.dist d).flags
  lastCause : (v.dist d).lastCause = (s.dist d).lastCause
  incidentSlot : (v.dist d).incidentSlot = (s.dist d).incidentSlot
  slots : v.slots = s.slots
  queue : v.queue = s.queue
  others : ∀ e, e ≠ d → v.dist e = s.dist e

section
variable {s v : State} {n : SlotId} {d : DistrictId} (h : TrippedIn s v d) (c : Cut)
include h

theorem TrippedIn.slot (k : SlotId) : v.slot k = s.slot k := by rw [State.slot, h.slots, State.slot]

theorem TrippedIn.furtherCut : ((v.furtherCut n d c).dist d).state = .tripped
    ∧ ((v.furtherCut n d c).dist d).flags = { (s.dist d).flags with tripped := true }
    ∧ ((v.furtherCut n d c).dist d).incidentSlot = (s.dist d).incidentSlot ∧ (v.furtherCut n d c).queue = s.queue
    ∧ ∀ e, e ≠ d → (v.furtherCut n d c).dist e = s.dist e := by
  obtain ⟨-, -, hqueue, hdist, hothers⟩ := v.furtherCut_spec n d c
  rw [hdist, ← h.flags]
  exact ⟨h.state, rfl, h.incidentSlot, hqueue.trans h.queue, fun e he => (hothers e he).trans (h.others e he)⟩

theorem TrippedIn.furtherCut_of_not_higher
    (hm : ∀ m ∈ (s.slot n).members, m.district = d → c.cause.priority ≤ m.cause.priority) :
    ((v.furtherCut n d c).dist d).lastCause = (s.dist d).lastCause ∧ (v.furtherCut n d c).slots = s.slots := by
  rw [v.furtherCut_of_not_higher n d c (by rw [h.slot]; exact hm), State.dist_modDist_same]
  exact ⟨h.lastCause, h.slots⟩

theorem TrippedIn.furtherCut_of_higher
    (hm : ∃ m ∈ (s.slot n).members, m.district = d ∧ m.cause.priority < c.cause.priority) :
    ((v.furtherCut n d c).dist d).lastCause = some c.cause
      ∧ (∀ k, k ≠ n → (v.furtherCut n d c).slot k = s.slot k)
      ∧ (v.furtherCut n d c).slot n = { s.slot n with
          members := (s.slot n).members.map (fun m => if m.district = d then m.raise c else m)
          anySaturated := ((s.slot n).members.map (fun m =>
            if m.district = d then m.raise c else m)).any Member.saturated } := by
  rw [v.furtherCut_of_higher n d c (by rw [h.slot]; exact hm), State.modSlot_dist, State.dist_modDist_same,
    State.slot_modSlot_same, State.modDist_slot, State.modDist_slot, h.slot]
  refine ⟨rfl, fun k hk => ?_, rfl⟩
  rw [State.slot_modSlot_other _ n _ k hk, State.modDist_slot, State.modDist_slot, h.slot]

end

section
variable {s u : State} {d : DistrictId} {y : ChannelReport} (h : Read s u d y)
include h

theorem Read.trippedIn (ht : (s.dist d).state = .tripped) : TrippedIn s u d := by
  have hdist := h.dist
  exact ⟨by rw [hdist]; exact ht, by rw [hdist], by rw [hdist], by rw [hdist], h.slots, h.queue, h.others⟩

theorem Read.trippedIn_backToTripped : TrippedIn s (u.backToTripped d) d := by
  have hdist := u.dist_backToTripped d
  rw [h.dist] at hdist
  refine ⟨by rw [hdist], by rw [hdist], by rw [hdist], by rw [hdist], ?_, ?_, fun e he =>
    ((offRamp_backToTripped u d).others e he).trans (h.others e he)⟩
  · rw [State.backToTripped_eq, h.slots]
  · rw [State.backToTripped_eq, h.queue]

end

/-! ### A member of a RECOVERING incident (R45) -/

section
variable {s u : State} {n : SlotId} {d : DistrictId} {y : ChannelReport} (h : Read s u d y) (c : Cut)
  (hn : (s.dist d).incidentSlot = some n)
include h hn

theorem Read.incidentSlot_becomeSuspect : ((u.becomeSuspect n d c).dist d).incidentSlot = some n := by
  rw [State.dist_becomeSuspect, h.dist]
  exact hn

/-- Where a re-trip's suspect ends, by its intent and its count. -/
theorem Read.reTrip_cases : ReTripped (u.becomeSuspect n d c) (u.reTrip n d c) n d
    ∧ ((s.dist d).intent = .onManual → ((u.reTrip n d c).dist d).state = .stopped)
    ∧ ((s.dist d).intent ≠ .onManual → ((u.reTrip n d c).dist d).attempts = s.control.limit →
      (s.dist d).invalid = false → LockedOut (u.reTrip n d c) d
        ∧ ((u.reTrip n d c).slot n).lockouts = (s.slot n).lockouts ||| BitVec.twoPow 32 d.val)
    ∧ ((s.dist d).intent ≠ .onManual → ((u.reTrip n d c).dist d).attempts ≠ s.control.limit →
      ((u.reTrip n d c).dist d).state = .holdoff ∧ ((u.reTrip n d c).slot n).lockouts = (s.slot n).lockouts
        ∧ ((u.reTrip n d c).dist d).holdoffTimer = some
            (min (field s.control.holdoffBase 0 8 * 2 ^ ((u.reTrip n d c).dist d).attempts) 255 * 100000)) := by
  have hmember := h.incidentSlot_becomeSuspect c hn
  have hintent : (u.dist d).intent = (s.dist d).intent := by
    rw [h.dist]
    rfl
  have hlockouts : ((u.becomeSuspect n d c).slot n).lockouts = (s.slot n).lockouts := by
    rw [State.slot_becomeSuspect_same, h.slot]
  have hcontrol : (u.becomeSuspect n d c).control = s.control := by rw [State.becomeSuspect_eq, h.control]
  by_cases hi : (s.dist d).intent = .onManual
  · rw [State.reTrip_of_manual (hintent.trans hi)]
    refine ⟨reTripped_enter hmember rfl rfl, fun _ => ?_, fun hnot => absurd hi hnot, fun hnot => absurd hi hnot⟩
    rw [State.dist_enter_same]
    rfl
  · have hi' : (u.dist d).intent ≠ .onManual := hintent.symm ▸ hi
    by_cases hl : ((u.becomeSuspect n d c).dist d).attempts = u.control.limit
    · have hmoved := reTripped_enterLockout hmember
      have hlimit : (((u.becomeSuspect n d c).enterLockout d).dist d).attempts = s.control.limit := by
        rw [hmoved.kept.attempts, hl, h.control]
      rw [State.reTrip_of_limit hi' hl]
      refine ⟨hmoved, fun hnot => absurd hnot hi, fun _ _ hv => ⟨lockedOut_enterLockout hmember ?_, ?_⟩,
        fun _ hnot => absurd hlimit hnot⟩
      · rw [State.dist_becomeSuspect, h.dist]
        exact hv
      · rw [State.lockouts_enterLockout hmember, hlockouts]
    · have hmoved : ReTripped (u.becomeSuspect n d c) ((u.becomeSuspect n d c).enter d .holdoff) n d :=
        reTripped_enter hmember rfl rfl
      have hlimit : (((u.becomeSuspect n d c).enter d .holdoff).dist d).attempts ≠ s.control.limit := by
        rw [hmoved.kept.attempts, ← h.control]
        exact hl
      rw [State.reTrip_of_holdoff hi' hl]
      refine ⟨hmoved, fun hnot => absurd hnot hi, fun _ hyes => absurd hyes hlimit, fun _ _ => ⟨?_, hlockouts, ?_⟩⟩
      · rw [State.dist_enter_same]
        rfl
      · rw [State.dist_enter_same, hcontrol]
        rfl

/-- What every re-trip of d gives (R45). -/
theorem Read.reTrip_taken : OffRamp u (u.reTrip n d c) d ∧ ((u.reTrip n d c).dist d).flags.tripped = true
    ∧ ((u.reTrip n d c).dist d).lastCause = some c.cause ∧ ((u.reTrip n d c).dist d).role = .suspect
    ∧ ((u.reTrip n d c).dist d).incidentSlot = some n ∧ (u.reTrip n d c).queue = s.queue
    ∧ ((u.reTrip n d c).dist d).level = 0 ∧ ((u.reTrip n d c).dist d).mark = false
    ∧ (∀ k, k ≠ n → (u.reTrip n d c).slot k = s.slot k)
    ∧ (u.reTrip n d c).slot n = { s.slot n with
        members := (s.slot n).members.map (fun m => if m.district = d then { m with role := .suspect } else m)
        suspects := (s.slot n).suspects.erase d ++ [d]
        lockouts := ((u.reTrip n d c).slot n).lockouts } := by
  obtain ⟨hmoved, -⟩ := h.reTrip_cases c hn
  have hdist := u.dist_becomeSuspect n d c
  refine ⟨(offRamp_becomeSuspect u n d c).congr hmoved.engines hmoved.feeds hmoved.kept.attempts hmoved.others,
    ?_, ?_, ?_, ?_, ?_, hmoved.level, hmoved.mark, fun k hk => ?_, ?_⟩
  · rw [hmoved.kept.tripped, hdist]
  · rw [hmoved.kept.lastCause, hdist]
  · rw [hmoved.role, hdist]
  · rw [hmoved.kept.incidentSlot, h.incidentSlot_becomeSuspect c hn]
  · rw [hmoved.queue, State.becomeSuspect_eq, h.queue]
  · rw [hmoved.slots k hk, State.slot_becomeSuspect_other _ n d c hk, h.slot]
  · rw [hmoved.slot, State.slot_becomeSuspect_same, h.slot]

end

end Sys2Proof.Machine
end

section
/-! PROOF. O50 settled: a new trip, a further cut, a re-trip, or nothing, by the state and membership of the district. -/

namespace Sys2Proof.Machine

open Sys2Proof

section
variable {s u : State} {d : DistrictId} {y : ChannelReport} (h : Read s u d y) (c : Cut)
include h

/-- A new trip that nothing takes in is solitary. -/
theorem Read.newTrip_of_solitary (hq : ∀ k, ¬Qualifies s d c.stamp k) (hf : ∀ k, (s.slot k).state ≠ .free) :
    u.newTrip d c = (u.loneTrip d c).closeAlone d :=
  u.newTrip_of_solitary d c (fun k hk => hq k ((h.qualifies c.stamp k).mp hk)) (fun k => by rw [h.slot]; exact hf k)

/-- What a solitary cut records (R35, R167). -/
theorem Read.closeAlone_records : ((u.loneTrip d c).closeAlone d).slots = s.slots
    ∧ ((u.loneTrip d c).closeAlone d).nextId = s.nextId
    ∧ (((u.loneTrip d c).closeAlone d).dist d).incidentSlot = .none
    ∧ (((u.loneTrip d c).closeAlone d).dist d).lastIncident = .none
    ∧ ((u.loneTrip d c).closeAlone d).ring =
      { s.ring with missed := min (s.ring.missed + 1) 255, solitaryLoss := true } := by
  obtain ⟨hslots, hnextId, -, -, -, hring⟩ := h.loneTrip_stands c
  have hmoved := moved_closeAlone (u.incidentSlot_loneTrip d c)
  refine ⟨?_, ?_, ?_, ?_, ?_⟩
  · rw [hmoved.state, hslots]
  · rw [hmoved.state, hnextId]
  · rw [hmoved.dist.incidentSlot, h.dist_loneTrip]
  · rw [hmoved.dist.lastIncident, h.dist_loneTrip]
  · rw [hmoved.state, hring]

omit h in
theorem State.attempts_closeAlone_loneTrip :
    (((u.loneTrip d c).closeAlone d).dist d).attempts = ((u.loneTrip d c).dist d).attempts :=
  (moved_closeAlone (u.incidentSlot_loneTrip d c)).dist.attempts

theorem Read.closeAlone_of_manual (hi : (s.dist d).intent = .onManual) :
    (((u.loneTrip d c).closeAlone d).dist d).state = .stopped
      ∧ (((u.loneTrip d c).closeAlone d).dist d).role = .none :=
  State.closeAlone_of_manual ((h.intent_loneTrip c).trans hi)

theorem Read.closeAlone_of_limit (hv : (s.dist d).invalid = false) (hi : (s.dist d).intent ≠ .onManual)
    (hl : ((u.loneTrip d c).dist d).attempts = s.control.limit) :
    LockedOut ((u.loneTrip d c).closeAlone d) d ∧ (((u.loneTrip d c).closeAlone d).dist d).role = .none := by
  obtain ⟨-, -, -, -, hcontrol, -⟩ := h.loneTrip_stands c
  exact State.closeAlone_of_limit (u.incidentSlot_loneTrip d c) (by rw [h.dist_loneTrip]; exact hv)
    ((h.intent_loneTrip c).symm ▸ hi) (by rw [hl, hcontrol])

end

/-- A district that is not RAMPING gives no engine a reading. -/
theorem ReadingTaken.engines_of_not_ramping {s u : State} {x : Exchange} {d : DistrictId} {y : ChannelReport}
    (h : ReadingTaken s x d y u) (hd : (s.dist d).state ≠ .ramping) : u.engines = s.engines := by
  obtain ⟨-, hengine⟩ := h
  exact table_ext (fun e => (hengine e).trans (if_neg (fun hr => hd hr.1)))

/-- A further cut of a member of a GATHERING incident is taken in TRIPPED: from there, or off the ramp (R36). -/
theorem Read.takeCut_of_gathering {s u : State} {x : Exchange} {n : SlotId} {d : DistrictId} {y : ChannelReport}
    (h : Read s u d y) (hreading : ReadingTaken s x d y u) (c : Cut) (hn : (s.dist d).incidentSlot = some n)
    (hg : (s.slot n).state = .gathering) (ht : (s.dist d).state = .tripped ∨ (s.dist d).state = .ramping
      ∨ (s.dist d).state = .proving ∨ (s.dist d).state = .live) :
    ∃ v : State, u.takeCut d c = v.furtherCut n d c ∧ TrippedIn s v d
      ∧ ((s.dist d).state = .tripped → v.engines = s.engines ∧ v.feeds = s.feeds)
      ∧ ((s.dist d).state ≠ .tripped → OffRamp u v d ∧ (v.dist d).level = 0 ∧ (v.dist d).mark = false) := by
  have hn' : (u.dist d).incidentSlot = some n := by rw [h.dist]; exact hn
  have hg' : (u.slot n).state = .gathering := by rw [h.slot]; exact hg
  have hst : (u.dist d).state = (s.dist d).state := by rw [h.dist]
  by_cases htripped : (s.dist d).state = .tripped
  · have hengines := hreading.engines_of_not_ramping (by rw [htripped]; decide)
    exact ⟨u, State.takeCut_of_tripped hn' c hg' (hst.trans htripped), h.trippedIn htripped,
      fun _ => ⟨hengines, h.feeds⟩, fun hnot => absurd htripped hnot⟩
  · refine ⟨u.backToTripped d, State.takeCut_of_powered_again hn' c hg' ?_, h.trippedIn_backToTripped,
      fun hyes => absurd hyes htripped, fun _ => ⟨offRamp_backToTripped u d, ?_, ?_⟩⟩
    · rw [hst]
      exact ht.resolve_left htripped
    all_goals rw [State.dist_backToTripped]

/-- Settles O50: the readings of the REPORT bring nothing else, so its claim is the one cut, taken by d's state and
membership. -/
theorem reportedCutOpensSlot : Obligations.ReportedCutOpensSlot := by
  unfold Obligations.ReportedCutOpensSlot
  intro s r x d c y a hg hk ha hp hy hnew hstamp
  have hexec := exec_report_of_cut hg hk ha hp hy hnew
  have hreading := readingTaken_withReading s x r d y
  generalize (s.answeredBy x r).withReading d y = u at hexec hreading
  have hread := hreading.read
  have hunchanged (hsame : u.takeCut d (y.cut x.timeBase) = u) : exec (.report r) s = .next u := by
    rw [hexec, hsame, State.finish_of_same u d u rfl rfl rfl]
  subst hstamp
  generalize hcut : y.cut x.timeBase = k at hexec hunchanged
  have hcause : k.cause = y.cause := by rw [← hcut]; rfl
  have hstamp : k.stamp = x.timeBase - BitVec.ofNat 24 y.age := by rw [← hcut]; rfl
  have hsaturated : k.saturated = decide (y.age = 65535) := by rw [← hcut]; rfl
  rw [← hcause, ← hstamp, ← hsaturated]
  refine ⟨by decide, u, hreading, fun hn he => hunchanged (hread.takeCut_of_unpowered k hn he), fun hn he => ?solo,
    fun n hn hgathering => ⟨fun ht hr hpr hl => ?aside, fun ht => ?further⟩,
    fun n hn hrecovering => ⟨fun he => ?asleep, fun he => ?retrip⟩⟩
  case solo =>
    rw [hread.takeCut_of_solo k hn he] at hexec
    obtain ⟨hoff, htripped, hlast, hcurrent⟩ := newTrip_taken u d k
    refine ⟨u.newTrip d k, u.entryOf d k, hexec, hoff.leaves, hread.entryOf_eq k, htripped, hlast, ?_,
      fun e he => (hoff.others e he).trans (hread.others e he), hread.newTrip_of_place k,
      fun n => hread.newTrip_of_joins k, fun n hq hfree hlow => ?_, fun hq hf => ?_⟩
    · rw [hcurrent, hread.dist]
    · obtain ⟨hslot, hid, hnextId, hopened, hslots⟩ := hread.newTrip_of_free k hq hfree hlow
      rw [hopened]
      exact ⟨hslot, hid, hnextId, rfl, rfl, rfl, rfl, rfl, rfl, rfl, rfl, rfl, rfl, rfl, rfl, rfl, hslots⟩
    · rw [hread.newTrip_of_solitary k hq hf, State.attempts_closeAlone_loneTrip]
      obtain ⟨hslots, hnextId, hslot, hid, hring⟩ := hread.closeAlone_records k
      exact ⟨hslots, hnextId, hslot, hid, hring, hread.closeAlone_of_manual k, hread.closeAlone_of_limit k ha.valid,
        fun hi hl => ⟨hread.closeAlone_of_flip k hi hl, hread.closeAlone_of_holdoff k hi hl⟩⟩
  case aside =>
    refine hunchanged (State.takeCut_of_elsewhere (n := n) ?_ k ?_ ?_ ?_ ?_ ?_)
    case refine_2 => rw [hread.slot]; exact hgathering
    all_goals rw [hread.dist]; assumption
  case further =>
    obtain ⟨v, htaken, hin, hfrom, hleft⟩ := hread.takeCut_of_gathering hreading k hn hgathering ht
    obtain ⟨hengines, hfeeds, -, hdist, hothers⟩ := v.furtherCut_spec n d k
    obtain ⟨hst, hflags, hincident, hqueue, hrest⟩ := hin.furtherCut (n := n) k
    rw [htaken] at hexec
    refine ⟨v.furtherCut n d k, hexec, hst, hflags, hincident.trans hn, hqueue, hrest, fun hyes => ?_, fun hnot => ?_,
      hin.furtherCut_of_not_higher k, fun hhigher => ?_⟩
    · obtain ⟨he, hf⟩ := hfrom hyes
      exact ⟨hengines.trans he, hfeeds.trans hf⟩
    · obtain ⟨hoff, hlevel, hmark⟩ := hleft hnot
      rw [hdist]
      exact ⟨(hoff.congr hengines hfeeds (by rw [hdist]) hothers).leaves, hlevel, hmark⟩
    · obtain ⟨hlast, hslots, hslot⟩ := hin.furtherCut_of_higher k hhigher
      exact ⟨hlast, hslots, _, rfl, hslot⟩
  case asleep =>
    refine hunchanged ?_
    rw [State.takeCut_of_recovering (n := n) (by rw [hread.dist]; exact hn) k (by rw [hread.slot]; exact hrecovering)]
    exact if_neg (mt hread.energised_iff.mp he)
  case retrip =>
    rw [State.takeCut_of_recovering (n := n) (by rw [hread.dist]; exact hn) k (by rw [hread.slot]; exact hrecovering),
      if_pos (hread.energised_iff.mpr he)] at hexec
    obtain ⟨hoff, htripped, hlast, hrole, hincident, hqueue, hlevel, hmark, hslots, hslot⟩ := hread.reTrip_taken k hn
    obtain ⟨-, hmanual, hlimit, hholdoff⟩ := hread.reTrip_cases k hn
    exact ⟨u.reTrip n d k, hexec, hoff.leaves, htripped, hlast, hrole, hincident, hqueue, hlevel, hmark,
      fun e hne => (hoff.others e hne).trans (hread.others e hne), hslots, hslot, hmanual,
      fun hi hl => hlimit hi hl ha.valid, hholdoff⟩

end Sys2Proof.Machine
end

section
/-! SUPPORT. The correction set in the order of the offsets (R130), and what no operation behind the two faces
touches: the access, the memory face, the canonical form of the static RAM and the order of the marks. -/

namespace Sys2Proof.Machine

open Sys2Proof

/-! ### The order of the offsets (R130, R171 to R173) -/

/-- No two intent words share an offset, since a full reset lists every one of them by strictly rising offset. -/
theorem positionOffset_injective : Function.Injective positionOffset := fun p q h => by
  have hnodup : (allPositions.map positionOffset).Nodup :=
    List.pairwise_map.mpr (risingIn_allPositions.rising.imp Nat.ne_of_lt)
  exact List.inj_on_of_nodup_map hnodup (mem_allPositions p) (mem_allPositions q) h

/-- A position joins the marks at its place by offset. -/
theorem pairwise_insertPosition (p : IntentPos) {l : List IntentPos}
    (h : l.Pairwise (fun p q => positionOffset p < positionOffset q)) :
    (insertPosition p l).Pairwise (fun p q => positionOffset p < positionOffset q) := by
  induction l with
  | nil => exact List.pairwise_singleton _ _
  | cons q rest ih =>
    obtain ⟨hq, hrest⟩ := List.pairwise_cons.mp h
    unfold insertPosition
    split
    · exact h
    · next hne =>
      split
      · next hlt =>
        refine List.pairwise_cons.mpr ⟨fun x hx => ?_, h⟩
        rcases List.mem_cons.mp hx with rfl | hx
        · exact hlt
        · exact Nat.lt_trans hlt (hq x hx)
      · next hge =>
        refine List.pairwise_cons.mpr ⟨fun x hx => ?_, ih hrest⟩
        rcases (mem_insertPosition p x rest).mp hx with rfl | hx
        · exact Nat.lt_of_le_of_ne (Nat.le_of_not_lt hge) (fun he => hne (positionOffset_injective he))
        · exact hq x hx

/-! ### What stands behind the faces -/

/-- t has its memory canonical and its marks in order where s has. -/
def StoreKept (s t : State) : Prop :=
  (MemoryCanonical s → MemoryCanonical t) ∧ (MarksInOrder s → MarksInOrder t)

theorem StoreKept.refl (s : State) : StoreKept s s := ⟨id, id⟩

/-- t has the access and the memory face of s too. -/
def PathStands (s t : State) : Prop := StoreKept s t ∧ t.access = s.access ∧ t.face = s.face

theorem PathStands.refl (s : State) : PathStands s s := ⟨.refl s, rfl, rfl⟩

theorem PathStands.store {s t : State} (h : PathStands s t) : StoreKept s t := h.1

section
variable {r s : State}

theorem StoreKept.trans {t : State} (h : StoreKept r s) (g : StoreKept s t) : StoreKept r t := by
  obtain ⟨hmem, hmarks⟩ := h
  obtain ⟨gmem, gmarks⟩ := g
  exact ⟨gmem ∘ hmem, gmarks ∘ hmarks⟩

theorem StoreKept.writeMem (h : StoreKept r s) (a : WordAddr) (l : Lanes) (v : Word) :
    StoreKept r (s.writeMem a l v) :=
  h.trans ⟨fun hs => Memory.wf_write hs a l v, id⟩

theorem StoreKept.spoil (h : StoreKept r s) (a : WordAddr) : StoreKept r (s.spoil a) :=
  h.writeMem a .both _

/-- Marks cleared. -/
theorem StoreKept.filterMarks (h : StoreKept r s) (P : IntentPos → Bool) :
    StoreKept r { s with corrections := s.corrections.filter P } :=
  h.trans ⟨id, fun hs => hs.filter P⟩

theorem StoreKept.mark (h : StoreKept r s) (p : IntentPos) : StoreKept r (s.mark p) := by
  unfold State.mark
  split
  · exact h
  · exact h.trans ⟨id, pairwise_insertPosition p⟩

theorem StoreKept.storeIntent (h : StoreKept r s) (p : IntentPos) (v : Word) : StoreKept r (s.storeIntent p v) := by
  refine StoreKept.writeMem (s := (s.setCopy p v).unmark p) ?_ _ .both v
  cases p <;> exact h.filterMarks _

theorem StoreKept.cutOff (h : StoreKept r s) : StoreKept r s.cutOff := by
  unfold State.cutOff
  split
  · exact h.spoil _
  · exact h.spoil _
  all_goals exact h

end

section
variable {r s : State} (h : PathStands r s)
include h

theorem PathStands.trans {t : State} (g : PathStands s t) : PathStands r t := by
  obtain ⟨hstore, haccess, hface⟩ := h
  obtain ⟨gstore, gaccess, gface⟩ := g
  exact ⟨hstore.trans gstore, gaccess.trans haccess, gface.trans hface⟩

/-- What claims leave alone, with the marks kept in order. -/
theorem PathStands.of_store {t : State} (hstore : StoreKept s t) (ha : t.access = s.access) (hf : t.face = s.face) :
    PathStands r t :=
  h.trans ⟨hstore, ha, hf⟩

theorem PathStands.mark (p : IntentPos) : PathStands r (s.mark p) :=
  h.of_store ((StoreKept.refl s).mark p) (calm_mark s p).access (calm_mark s p).face

theorem PathStands.storeIntent (p : IntentPos) (v : Word) : PathStands r (s.storeIntent p v) := by
  refine h.of_store ((StoreKept.refl s).storeIntent p v) ?_ ?_ <;> cases p <;> rfl

theorem PathStands.foldl {α : Type} {f : State → α → State} (l : List α)
    (hf : ∀ a t, PathStands r t → PathStands r (f t a)) : PathStands r (l.foldl f s) :=
  foldl_keeps f l (fun a _ => hf a) s h

theorem PathStands.inFreeOrder {α : Type} (l : List α) {f : α → State → State}
    (hf : ∀ a t, PathStands r t → PathStands r (f a t)) : PathStands r (s.inFreeOrder l f) :=
  State.inFreeOrder_keeps l f (fun _ ht => ht) (fun a _ => hf a) s h

/-! ### Check errors, notices and scans (R22, R47, R49, R70 to R76) -/

theorem PathStands.depart (d : DistrictId) : PathStands r (s.depart d) := by
  rw [s.depart_eq]
  exact h

theorem PathStands.checkError (d : DistrictId) : PathStands r (s.checkError d) := by
  have hleft : PathStands r (if (s.dist d).state = .locked then s else (s.depart d).enter d .checkHold) := by
    split
    · exact h
    · exact h.depart d
  exact hleft.of_store ((StoreKept.refl _).filterMarks _) rfl rfl

theorem PathStands.closeSlot (n : SlotId) : PathStands r (s.closeSlot n) := by
  obtain ⟨contexts, ring, slots, hclose, -⟩ := s.closeSlot_eq n
  rw [hclose]
  exact h

theorem PathStands.releaseSuspect (d : DistrictId) : PathStands r (s.releaseSuspect d) := by
  unfold State.releaseSuspect
  split
  · exact h.checkError d
  · exact h

theorem PathStands.settleSlot (fuel : Nat) (n : SlotId) : PathStands r (settleSlot fuel n s) :=
  settleSlot_keeps (fun _ m ht => ht.closeSlot m) (fun _ d ht _ => ht.releaseSuspect d) fuel n s h

theorem PathStands.notify (before : State) (d : DistrictId) : PathStands r (before.notify d s) :=
  State.notify_keeps (fun _ n ht => ht.closeSlot n) (fun _ c ht _ => ht.releaseSuspect c) before d s h

theorem PathStands.grant (e : EngineId) (d : DistrictId) : PathStands r (s.grant e d) := by
  have hbegun : PathStands r (s.beginRamp e d) := by
    unfold State.beginRamp
    split <;> exact h
  have hnotified := hbegun.notify s d
  unfold State.grant
  dsimp only
  split
  · exact (h.checkError d).notify s d
  · split
    · have hcompleted : PathStands r ((s.notify d (s.beginRamp e d)).completeRamp e d) := hnotified
      exact hcompleted.notify _ d
    · exact hnotified

theorem PathStands.scan : PathStands r s.scan :=
  State.scan_keeps (fun _ e d ht _ _ _ => ht.grant e d) s h

theorem PathStands.rescan (before : State) : PathStands r (before.rescan s) := by
  unfold State.rescan
  split
  · exact h.scan
  · exact h

/-! ### Claims -/

theorem PathStands.finish (before : State) (d : DistrictId) : PathStands r (before.finish d s) :=
  (h.notify before d).rescan before

theorem PathStands.raiseCheck (d : DistrictId) : PathStands r (s.raiseCheck d) := (h.checkError d).finish s d

theorem PathStands.claim (d : DistrictId) {f : State → State} (hf : PathStands r (f s)) :
    PathStands r (s.claim d f) := by
  unfold State.claim
  split
  · exact h.raiseCheck d
  · exact hf.finish s d

theorem PathStands.claimUnscanned (d : DistrictId) {f : State → State} (hf : PathStands r (f s)) :
    PathStands r (s.claimUnscanned d f) := by
  refine PathStands.notify ?_ s d
  split
  · exact h.checkError d
  · exact hf

theorem PathStands.running {f : State → State} (hf : PathStands r (f s)) : PathStands r (s.running f) := by
  unfold State.running
  split
  · exact h
  · exact hf

end

end Sys2Proof.Machine
end

section
/-! SUPPORT. Cuts, closes, timers, feeds, the link, host writes and commands leave the access and the memory face, and
keep the static RAM canonical and the marks in order. -/

namespace Sys2Proof.Machine

open Sys2Proof

section
variable {r s : State} (h : PathStands r s)
include h

/-! ### Close states and cuts (R31 to R36, R43, R45, R56, R57) -/

theorem PathStands.freeEngineOf (d : DistrictId) : PathStands r (s.freeEngineOf d) := by
  unfold State.freeEngineOf
  split <;> exact h

theorem PathStands.enterLockout (d : DistrictId) : PathStands r (s.enterLockout d) := by
  unfold State.enterLockout
  refine PathStands.mark ?_ _
  split <;> exact h

theorem PathStands.enterCloseState (d : DistrictId) : PathStands r (s.enterCloseState d) := by
  unfold State.enterCloseState
  split
  · exact h
  · split
    · exact h.enterLockout d
    · split
      · unfold State.flip
        split <;> exact h
      all_goals exact h

theorem PathStands.leaveEnergised (d : DistrictId) : PathStands r (s.leaveEnergised d) := by
  unfold State.leaveEnergised
  split <;> exact h

theorem PathStands.furtherCut (n : SlotId) (d : DistrictId) (c : Cut) : PathStands r (s.furtherCut n d c) := by
  unfold State.furtherCut
  dsimp only
  split <;> exact h

theorem PathStands.solitary (d : DistrictId) (c : Cut) : PathStands r (s.solitary d c) := by
  have hclosed : PathStands r ((s.recordSolitary d c).enterCloseState d) :=
    PathStands.enterCloseState (s := s.recordSolitary d c) h d
  unfold State.solitary
  dsimp only
  split <;> exact hclosed

theorem PathStands.newTrip (d : DistrictId) (c : Cut) : PathStands r (s.newTrip d c) := by
  have htripped : PathStands r ((s.leaveEnergised d).enterTripped d c) := h.leaveEnergised d
  unfold State.newTrip
  dsimp only
  split
  · exact htripped
  · split
    · exact htripped
    · exact htripped.solitary d c

theorem PathStands.reTrip (n : SlotId) (d : DistrictId) (c : Cut) : PathStands r (s.reTrip n d c) := by
  have hsuspect : PathStands r (s.becomeSuspect n d c) := h.leaveEnergised d
  unfold State.reTrip
  dsimp only
  split
  · exact hsuspect
  · split
    · exact hsuspect.enterLockout d
    · exact hsuspect

theorem PathStands.takeCut (d : DistrictId) (c : Cut) : PathStands r (s.takeCut d c) := by
  have hleft (n : SlotId) : PathStands r (((s.leaveEnergised d).enter d .tripped).furtherCut n d c) :=
    PathStands.furtherCut (s := (s.leaveEnergised d).enter d .tripped) (h.leaveEnergised d) n d c
  unfold State.takeCut
  split
  · split
    · split
      case h_1 => exact h.furtherCut _ d c
      case h_2 | h_3 | h_4 => exact hleft _
      all_goals exact h
    · split
      · exact h.reTrip _ d c
      · exact h
    all_goals exact h
  · split
    · exact h.newTrip d c
    · exact h

/-! ### Returns to the queue, sag notices and closes (R38 to R44, R60, R66, R83, R93, R94) -/

theorem PathStands.returnClaim (d : DistrictId) : PathStands r (State.returnClaim d s) := by
  unfold State.returnClaim
  split
  · refine h.claim d ?_
    unfold State.returnEffect
    split
    · exact h.freeEngineOf d
    all_goals exact h
  · exact h

theorem PathStands.feedLeavesUp (k : FeedId) : PathStands r (s.feedLeavesUp k) :=
  h.inFreeOrder _ (fun d _ ht => ht.returnClaim d)

theorem PathStands.sagNotice (k : FeedId) : PathStands r (State.sagNotice k s) := by
  unfold State.sagNotice
  split
  · exact PathStands.feedLeavesUp (s := s.startSettling k) h k
  all_goals exact h

theorem PathStands.enterMember (m : Member) : PathStands r (s.enterMember m) := by
  unfold State.enterMember
  split
  · exact h
  · split
    · exact h.checkError _
    · split
      · exact h
      · exact h.enterCloseState _

theorem PathStands.enterCloseStates (n : SlotId) : PathStands r (s.enterCloseStates n) := by
  have hroles : PathStands r (s.fixRoles n) := by
    rw [s.fixRoles_eq]
    refine PathStands.foldl (s := s.modSlot n _) h _ (fun m t ht => ?_)
    unfold State.giveRole
    split <;> exact ht
  rw [s.enterCloseStates_eq]
  exact hroles.foldl (s.closingMembers n) (fun m _ ht => ht.enterMember m)

theorem PathStands.closeGathering (n : SlotId) : PathStands r (State.closeGathering n s) := by
  have hsettled := ((h.enterCloseStates n).settleSlot 33 n).rescan s
  unfold State.closeGathering State.afterClose
  dsimp only
  split
  · exact hsettled.inFreeOrder _ (fun k _ ht => ht.sagNotice k)
  · exact hsettled

theorem PathStands.gatheringExpires (n : SlotId) : PathStands r (State.gatheringExpires n s) := by
  unfold State.gatheringExpires
  dsimp only
  split
  · split
    · exact PathStands.closeGathering (s := s.modSlot n _) h n
    · exact h
  · exact h

theorem PathStands.roundEnd : PathStands r s.roundEnd := by
  unfold State.roundEnd
  refine PathStands.inFreeOrder ?_ _ (fun n _ ht => ht.closeGathering n)
  exact h

/-! ### The timers of districts and engines (R18, R20, R78 to R80, R87) -/

theorem PathStands.holdoffExpires (d : DistrictId) : PathStands r (State.holdoffExpires d s) := by
  unfold State.holdoffExpires
  split
  · refine h.claim d ?_
    unfold State.leaveHoldoff
    split <;> exact h
  · exact h

theorem PathStands.restore (d : DistrictId) : PathStands r (s.restore d) := by
  unfold State.restore
  dsimp only
  split <;> exact h

theorem PathStands.provingExpires (d : DistrictId) : PathStands r (State.provingExpires d s) := by
  have hlive : PathStands r (s.becomeLive d) := by
    unfold State.becomeLive
    split
    · exact h.restore d
    · exact h
  unfold State.provingExpires
  split
  · exact h.claim d hlive
  · exact h

theorem PathStands.quietExpires (d : DistrictId) : PathStands r (State.quietExpires d s) := by
  unfold State.quietExpires
  split
  · exact h.claim d h
  · exact h

theorem PathStands.stallAbort (e : EngineId) (d : DistrictId) : PathStands r (s.stallAbort e d) :=
  PathStands.takeCut (s := ((s.modDist d District.latchStalled).countAttempt d).freeEngine e) h d _

theorem PathStands.stepExpires (e : EngineId) : PathStands r (State.stepExpires e s) := by
  unfold State.stepExpires
  dsimp only
  split
  · split
    · split
      · exact h
      · exact h.claim _ h
    · split
      · exact h
      · exact h.claim _ (h.stallAbort e _)
  · exact h

/-! ### Feeds and HOLD (R91, R92, R97, R157, R158) -/

theorem PathStands.lineLow (k : FeedId) : PathStands r (State.lineLow k s) := by
  unfold State.lineLow
  dsimp only
  split
  · split
    · exact PathStands.feedLeavesUp (s := State.modFeed { s with lines := put s.lines k false } k _) h k
    · exact h
  · exact h

theorem PathStands.lineHigh (k : FeedId) : PathStands r (State.lineHigh k s) := by
  unfold State.lineHigh
  dsimp only
  split
  · exact h
  · split <;> exact h

theorem PathStands.settleExpires (k : FeedId) : PathStands r (State.settleExpires k s) := by
  unfold State.settleExpires
  split
  · split
    · exact h
    · exact PathStands.scan (s := s.modFeed k _) h
  · exact h

theorem PathStands.drainExpires : PathStands r s.drainExpires := by
  unfold State.drainExpires
  dsimp only
  split
  · exact PathStands.scan (s := { s.drainAll with drainTimer := some s.control.drainMicros }) h
  · exact h

theorem PathStands.assertHold : PathStands r s.assertHold := by
  unfold State.assertHold
  split
  · exact h
  · exact PathStands.inFreeOrder (s := { s with hold := true }) h _ (fun d _ ht => ht.returnClaim d)

theorem PathStands.releaseHold : PathStands r s.releaseHold := by
  unfold State.releaseHold
  split
  · exact PathStands.scan (s := { s with hold := false }) h
  · exact h

/-! ### The link (R108 to R120) -/

theorem PathStands.pollChannel (k : NodeId) (c : ChannelId) : PathStands r (State.pollChannel k s c) := by
  unfold State.pollChannel
  split
  · exact h
  · split
    · exact h.raiseCheck _
    · exact h

theorem PathStands.formPoll (k : NodeId) : PathStands r (s.formPoll k) :=
  h.foldl (indices 4) (fun c _ ht => ht.pollChannel k c)

theorem PathStands.beginExchange : PathStands r s.beginExchange := by
  unfold State.beginExchange
  split
  · exact h
  · refine PathStands.formPoll ?_ _
    split <;> exact h

theorem PathStands.lossClaim (d : DistrictId) : PathStands r (State.lossClaim d s) := by
  refine h.claim d ?_
  unfold State.loseDistrict
  split
  -- UNREACHABLE, LOCKED and CHECK_HOLD stay; the other states are left for UNREACHABLE
  case h_1 | h_2 | h_3 => exact h
  all_goals exact h.depart d

theorem PathStands.loseNode (k : NodeId) : PathStands r (s.loseNode k) :=
  PathStands.inFreeOrder (s := s.modNode k _) h _ (fun d _ ht => ht.lossClaim d)

theorem PathStands.missNode (k : NodeId) : PathStands r (s.missNode k) := by
  unfold State.missNode
  split
  · exact h
  · split
    · exact h
    · exact PathStands.loseNode (s := s.modNode k _) h k
  · exact h

theorem PathStands.restartedNode (k : NodeId) : PathStands r (s.restartedNode k) := by
  unfold State.restartedNode
  dsimp only
  split
  · exact PathStands.loseNode (s := s.modNode k _) h k
  · exact h

theorem PathStands.returnClaimAt (k : NodeId) (c : ChannelId) : PathStands r (State.returnClaimAt k s c) := by
  unfold State.returnClaimAt
  split
  · split
    · refine h.claimUnscanned _ ?_
      unfold State.returnFromLoss
      split <;> exact h
    · exact h
  · exact h

theorem PathStands.takeReadings (d : DistrictId) (x : ChannelReport) : PathStands r (s.takeReadings d x) := by
  unfold State.takeReadings
  dsimp only
  split
  · split
    · split <;> exact h
    · split <;> exact h
    all_goals exact h
  · exact h

/-- A channel's readings and cut, taken by either kind of claim. -/
theorem PathStands.takeChannel {claim : State → DistrictId → (State → State) → State}
    (hclaim : ∀ t d f, PathStands r t → PathStands r (f t) → PathStands r (claim t d f)) (k : NodeId) (x : Report)
    (timeBase : Stamp) (c : ChannelId) : PathStands r (State.takeChannel claim k x timeBase s c) := by
  unfold State.takeChannel
  split
  · exact h
  · next d _ =>
    have hread := hclaim s d (fun u => u.takeReadings d (reportChannel x c)) h (h.takeReadings d _)
    dsimp only
    split
    · exact hclaim _ d _ hread (hread.takeCut d _)
    · exact hread

theorem PathStands.returnNode (k : NodeId) (x : Report) (timeBase : Stamp) :
    PathStands r (s.returnNode k x timeBase) := by
  have hreturned := h.foldl (indices 4) (fun c _ ht => ht.returnClaimAt k c)
  exact PathStands.rescan (PathStands.foldl (s := State.storeChannels _ k x) hreturned (indices 4) (fun c _ ht =>
    ht.takeChannel (fun _ d _ hu hf => hu.claimUnscanned d hf) k x timeBase c)) s

theorem PathStands.reportNode (k : NodeId) (x : Report) (timeBase : Stamp) :
    PathStands r (s.reportNode k x timeBase) := by
  unfold State.reportNode
  dsimp only
  split
  · exact PathStands.foldl (s := (s.modNode k _).storeChannels k x) h (indices 4) (fun c _ ht =>
      ht.takeChannel (fun _ d _ hu hf => hu.claim d hf) k x timeBase c)
  · exact PathStands.returnNode (s := s.modNode k _) h k x timeBase

theorem PathStands.endExchange {f : Exchange → State → State}
    (hf : ∀ x t, PathStands r t → PathStands r (f x t)) : PathStands r (State.endExchange f s) := by
  unfold State.endExchange
  split
  · exact h
  · next x _ =>
    have hended := hf x { s with exchange := .none, nextNode := nextAddress x.node } h
    dsimp only
    split
    · exact hended.roundEnd
    · exact hended

theorem PathStands.judgeReport (x : Report) (y : Exchange) : PathStands r (State.judgeReport x y s) := by
  unfold State.judgeReport
  split
  · split
    · exact h.restartedNode y.node
    · exact h.reportNode y.node x y.timeBase
  · exact h.missNode y.node

/-! ### Host writes (R3, R11 to R16, R19, R23, R99, R132, R136 to R143, R153 to R155) -/

theorem PathStands.readForWrite (d : DistrictId) : PathStands r (s.readForWrite d) := by
  unfold State.readForWrite
  split
  · exact h.raiseCheck d
  · exact h

theorem PathStands.storeFiltered (d : DistrictId) (w : Fin 5) (v : Word) (refused : Bool) :
    PathStands r (s.storeFiltered d w v refused) := by
  have hstored := h.storeIntent (.district d w) v
  unfold State.storeFiltered
  dsimp only
  split <;> exact hstored

theorem PathStands.start (d : DistrictId) : PathStands r (s.start d) := by
  unfold State.start
  split <;> exact h

theorem PathStands.setWithdrawn (d : DistrictId) (b : Bool) : PathStands r (s.setWithdrawn d b) := by
  unfold State.setWithdrawn
  split <;> exact h

theorem PathStands.intentMove (d : DistrictId) (i : Intent) : PathStands r (s.intentMove d i) := by
  unfold State.intentMove
  split
  · split
    · exact h.start d
    · split
      · exact h.start d
      · exact h
    · exact h.setWithdrawn d false
    all_goals exact h
  · split
    -- the ninth row is TRIPPED, withdrawn; the eight before it stop
    case h_9 => exact h.setWithdrawn d true
    case h_1 | h_2 | h_3 | h_4 | h_5 | h_6 | h_7 | h_8 => exact h.depart d
    all_goals exact h

theorem PathStands.reloadWord (d : DistrictId) (w : Fin 5) : PathStands r (s.reloadWord d w) := by
  unfold State.reloadWord
  dsimp only
  split
  · split
    · split <;> exact h
    · exact h
  · exact h

theorem PathStands.judgeMapping (d : DistrictId) : PathStands r (s.judgeMapping d) := by
  unfold State.judgeMapping
  split
  · split
    · split
      · split <;> exact h
      · exact h
    · split
      · exact PathStands.mark (s := (s.enter d .off).setIntentOff d) h _
      · exact h
  all_goals exact h

theorem PathStands.writeHostIntent (d : DistrictId) (v : Word) (l : Lanes) :
    PathStands r (State.writeHostIntent d v l s) :=
  ((((h.readForWrite d).storeFiltered d 0 _ _).intentMove d _).reloadWord d 0).finish _ d

theorem PathStands.writeDistrictWord (d : DistrictId) (w : Fin 5) (v : Word) (l : Lanes) :
    PathStands r (State.writeDistrictWord d w v l s) := by
  have hstored := (h.readForWrite d).storeFiltered d w
  unfold State.writeDistrictWord
  dsimp only
  refine PathStands.finish (PathStands.reloadWord ?_ d w) _ d
  split
  · exact PathStands.judgeMapping (s := State.modDist _ d _) (hstored _ _) d
  · exact hstored _ _

theorem PathStands.writeFeed (k : FeedId) (x : FeedReg) (v : Word) (l : Lanes) :
    PathStands r (State.writeFeed k x v l s) := by
  have hstored := h.storeIntent (.feed k x) (clampFeed x (mergeLanes l v ((s.feed k).read x)))
  unfold State.writeFeed
  dsimp only
  split
  case h_1 | h_2 => exact hstored.scan
  all_goals exact hstored

theorem PathStands.writeAttemptLimit (v : Word) (l : Lanes) : PathStands r (State.writeAttemptLimit v l s) :=
  h.storeIntent (.control .attemptLimit) _

theorem PathStands.writeRingSetting (x : RingReg) (v : Word) (l : Lanes) :
    PathStands r (State.writeRingSetting x v l s) := by
  have hstored (w : Word) := h.storeIntent (.control (ringReg x)) w
  unfold State.writeRingSetting
  dsimp only
  split
  · exact hstored _
  · exact PathStands.mark (s := (State.modRing _ _).modControl _) (hstored _) _

theorem PathStands.enterLocked (d : DistrictId) : PathStands r (s.enterLocked d) := by
  have hlocked : PathStands r ((s.depart d).enter d .locked) := h.depart d
  unfold State.enterLocked
  dsimp only
  split
  · exact PathStands.mark (s := ((s.depart d).enter d .locked).setIntentOff d) hlocked _
  · exact hlocked

theorem PathStands.exitLocked (d : DistrictId) : PathStands r (s.exitLocked d) := by
  unfold State.exitLocked
  split
  · exact h
  · split
    · exact h
    · split <;> exact h

theorem PathStands.lockClaim (d : DistrictId) {f : State → State}
    (hf : ∀ t, PathStands r t → PathStands r (f t)) : PathStands r (s.lockClaim d f) := by
  refine PathStands.finish (hf _ ?_) s d
  split
  · exact h.checkError d
  · exact h

theorem PathStands.writeLock (g : LockHalf) (v : Word) (l : Lanes) : PathStands r (State.writeLock g v l s) := by
  have hlatched (w : Word) (l : List DistrictId) : PathStands r
      ((s.storeIntent (.control (lockReg g)) w).latchRefusedAll l) :=
    (h.storeIntent _ w).foldl l (fun _ _ ht => ht)
  unfold State.writeLock
  dsimp only
  refine PathStands.inFreeOrder (hlatched _ _) _ (fun d t ht => ?_)
  unfold State.membershipClaim
  split
  · exact ht.lockClaim d (fun _ hu => hu.enterLocked d)
  · exact ht.lockClaim d (fun _ hu => hu.exitLocked d)

/-- A host write to any intent word (R126). -/
theorem PathStands.takeIntentWrite (p : IntentPos) (v : Word) (l : Lanes) :
    PathStands r (State.takeIntentWrite p v l s) := by
  cases p with
  | control x =>
    cases x with
    | attemptLimit => exact h.writeAttemptLimit v l
    | ringBaseLow | ringBaseHigh | ringCapacity => exact h.writeRingSetting _ v l
    | lockSetLow | lockSetHigh => exact h.writeLock _ v l
    | faultMask | consumerIndex | gatheringWindow | provingWindow | quietInterval | holdoffBase | drainPeriod =>
      exact h.storeIntent _ _
  | feed k x => exact h.writeFeed k x v l
  | adjacency j => exact h.storeIntent _ _
  | district d w =>
    unfold State.takeIntentWrite
    dsimp only
    split
    · exact h.writeHostIntent d v l
    · exact h.writeDistrictWord d w v l

/-! ### Commands and actions (R17, R27, R149 to R152) -/

theorem PathStands.layoutReset : PathStands r s.layoutReset := by
  have hrested : PathStands r s.restDistricts := by
    refine PathStands.foldl (s := { s with districts := tabulate 32 (fun d => (s.dist d).rest) }) h _
      (fun d t ht => ?_)
    unfold State.restIntent
    split
    · exact PathStands.mark (s := t.setIntentOff d) ht _
    · exact ht
  unfold State.layoutReset
  generalize s.restDistricts = t at hrested
  exact hrested

theorem PathStands.clearLockout (d : DistrictId) : PathStands r (State.clearLockout d s) := by
  refine h.claim d ?_
  unfold State.clearLockoutAt
  split <;> exact h

theorem PathStands.command (code : Word) : PathStands r (State.command code s) := by
  have hcleared : PathStands r s.clearAllLockouts := h.inFreeOrder s.clearable (fun d _ ht => ht.clearLockout d)
  unfold State.command
  split
  · exact h.layoutReset
  · split
    · exact hcleared
    · split
      · exact h
      · split <;> exact h

theorem PathStands.clearFlagsAt (d : DistrictId) : PathStands r (State.clearFlagsAt d s) := h.claim d h

theorem PathStands.action (d : DistrictId) (code : Word) : PathStands r (State.action d code s) := by
  unfold State.action
  split
  · exact h.clearLockout d
  · split
    · exact h.clearFlagsAt d
    · exact h

end

end Sys2Proof.Machine
end

section
/-! SUPPORT. The access path keeps the static RAM canonical, the marks in order, and the access and the memory face
agreeing (R123, R128), and so does every step. -/

namespace Sys2Proof.Machine

open Sys2Proof

/-! ### The access and the face (R123, R128) -/

/-- What the face may be beside each access. -/
theorem pathAgrees_iff (s : State) : PathAgrees s ↔
    match s.access with
    | .none | .served _ => s.face ≠ .host
    | .waiting _ => s.face ≠ .idle ∧ s.face ≠ .host
    | .onFace _ => s.face = .host := by
  unfold PathAgrees
  cases s.access <;> simp

theorem PathAgrees.face_ne_host {s : State} (h : PathAgrees s) (ha : ∀ r, s.access ≠ .onFace r) : s.face ≠ .host := by
  obtain ⟨-, honFace⟩ := h
  exact fun hf => (honFace.mp hf).elim ha

theorem PathAgrees.not_onFace {s : State} (h : PathAgrees s) (hf : s.face ≠ .host) (r : Request) :
    s.access ≠ .onFace r := by
  obtain ⟨-, honFace⟩ := h
  exact fun ha => hf (honFace.mpr ⟨r, ha⟩)

theorem PathAgrees.not_waiting {s : State} (h : PathAgrees s) (hf : s.face = .idle) (r : Request) :
    s.access ≠ .waiting r := by
  obtain ⟨hwaiting, -⟩ := h
  exact fun ha => (hwaiting ⟨r, ha⟩).1 hf

/-- With no access on the face, or waiting for it, the face is free for the own words. -/
theorem pathAgrees_of_resting {s : State} (hw : ∀ r, s.access ≠ .waiting r) (ho : ∀ r, s.access ≠ .onFace r)
    (hf : s.face ≠ .host) : PathAgrees s :=
  ⟨fun ⟨r, hr⟩ => absurd hr (hw r), iff_of_false hf (fun ⟨r, hr⟩ => ho r hr)⟩

theorem PathStands.agrees {s t : State} (h : PathStands s t) (hs : PathAgrees s) : PathAgrees t := by
  obtain ⟨-, haccess, hface⟩ := h
  rw [PathAgrees, haccess, hface]
  exact hs

/-! ### Reads, and accesses taken (R126, R127, R145, R146) -/

section
variable {r s : State} (h : PathStands r s)
include h

theorem PathStands.checkRead (p : IntentPos) : PathStands r (s.checkRead p) := by
  unfold State.checkRead
  split
  · split
    · exact h.raiseCheck _
    · exact h
  · exact h

theorem PathStands.checkRequest (x : Request) : PathStands r (s.checkRequest x) :=
  State.checkRequest_keeps h.checkRead h

theorem PathStands.serve (x : Request) : PathStands r (s.serve x) :=
  State.serve_keeps (fun _ => h) h (fun _ => h) h.command h.action h

theorem PathStands.carryOut (x : Request) : PathStands r (s.carryOut x) :=
  State.carryOut_keeps (fun _ => h) (fun p v => h.takeIntentWrite p v x.lanes)
    (fun v => h.of_store ((StoreKept.refl s).writeMem x.addr x.lanes v) rfl rfl)

end

/-! ### Accesses placed and ended (R123, R128, R129) -/

/-- t keeps the memory and the marks of s, and its access and face agree if those of s do. -/
def StepKept (s t : State) : Prop := StoreKept s t ∧ (PathAgrees s → PathAgrees t)

theorem StepKept.refl (s : State) : StepKept s s := ⟨.refl s, id⟩

theorem StepKept.trans {s t u : State} (h : StepKept s t) (g : StepKept t u) : StepKept s u :=
  ⟨h.1.trans g.1, g.2 ∘ h.2⟩

theorem PathStands.stepKept {s t : State} (h : PathStands s t) : StepKept s t := ⟨h.store, h.agrees⟩

theorem StepKept.running {s : State} {f : State → State} (h : StepKept s (f s)) : StepKept s (s.running f) := by
  unfold State.running
  split
  · exact .refl s
  · exact h

/-- An access placed while the host does not hold the face leaves the access and the face agreeing, whatever access
stood before it. -/
def AccessPlaced (s t : State) : Prop := StoreKept s t ∧ (s.face ≠ .host → PathAgrees t)

theorem accessPlaced_seekFace (s : State) (r : Request) : AccessPlaced s (State.seekFace r s) := by
  unfold State.seekFace
  split
  · have htaken := (PathStands.refl { s with face := .host, access := .onFace r }).carryOut r
    exact ⟨htaken.store, fun _ => htaken.agrees ((pathAgrees_iff _).mpr rfl)⟩
  · next hf => exact ⟨.refl s, fun _ => (pathAgrees_iff _).mpr (by simp [hf])⟩
  · next hf => exact ⟨.refl s, fun _ => (pathAgrees_iff _).mpr (by simp [hf])⟩
  · next hf => exact ⟨.refl s, fun hne => absurd hf hne⟩

theorem accessPlaced_placeAccess (s : State) (r : Request) : AccessPlaced s (s.placeAccess r) := by
  have hchecked := (PathStands.refl s).checkRequest r
  have hserved := hchecked.serve r
  obtain ⟨hcheck, -, hface⟩ := hchecked
  obtain ⟨hserve, -, hstill⟩ := hserved
  unfold State.placeAccess
  dsimp only
  split
  · obtain ⟨hstore, hagrees⟩ := accessPlaced_seekFace (s.checkRequest r) r
    exact ⟨hcheck.trans hstore, fun hne => hagrees (hface ▸ hne)⟩
  · exact ⟨hserve, fun hne => (pathAgrees_iff _).mpr (hstill ▸ hne)⟩

theorem stepKept_beginAccess (s : State) (r : Request) : StepKept s (State.beginAccess r s) := by
  unfold State.beginAccess
  split
  · next ha =>
    obtain ⟨hstore, hagrees⟩ := accessPlaced_placeAccess s r
    exact ⟨hstore, fun hs => hagrees (hs.face_ne_host (by simp [ha]))⟩
  all_goals exact .refl s

theorem stepKept_dropAccess (s : State) : StepKept s s.dropAccess := by
  unfold State.dropAccess
  split
  · next ha =>
    have hfree (hs : PathAgrees s) : s.face ≠ .host := hs.face_ne_host (by simp [ha])
    split <;> exact ⟨.refl s, fun hs => (pathAgrees_iff _).mpr (hfree hs)⟩
  all_goals exact .refl s

theorem stepKept_endAccess (s : State) : StepKept s s.endAccess := by
  unfold State.endAccess
  split
  · exact ⟨.refl s, fun _ => (pathAgrees_iff _).mpr (by simp)⟩
  · next ha => exact ⟨.refl s, fun hs => (pathAgrees_iff _).mpr (hs.face_ne_host (by simp [ha]))⟩
  · exact stepKept_dropAccess s
  · exact .refl s

/-- A whole access is taken, or waits behind an own word, or finds the part otherwise engaged (log 4). -/
theorem stepKept_wholeAccess (s : State) (r : Request) {taken : State → State} (h : PathStands s (taken s)) :
    StepKept s (s.wholeAccess r taken) := by
  unfold State.wholeAccess
  split
  · exact h.stepKept
  · exact .refl s
  all_goals
    next hf =>
      split
      · exact ⟨.refl s, fun _ => (pathAgrees_iff _).mpr (by simp [hf])⟩
      all_goals exact .refl s

theorem stepKept_hostRead (s : State) (p : IntentPos) (l : Lanes) : StepKept s (State.hostRead p l s) := by
  have hchecked := (PathStands.refl s).checkRead p
  unfold State.hostRead
  dsimp only
  split
  · exact hchecked.stepKept
  · exact hchecked.stepKept.trans (stepKept_wholeAccess _ _ (PathStands.refl (s.checkRead p)))

/-! ### Own words (R128, R130, R131, R164, R165) -/

theorem releaseFace_keeps (s : State) :
    StoreKept s s.releaseFace ∧ ((∀ r, s.access ≠ .onFace r) → PathAgrees s.releaseFace) := by
  unfold State.releaseFace
  split
  · next r _ =>
    obtain ⟨hstore, hagrees⟩ := accessPlaced_placeAccess { s with face := .idle } r
    exact ⟨hstore, fun _ => hagrees (by simp)⟩
  · next ha => exact ⟨.refl s, fun _ => (pathAgrees_iff _).mpr (by simp [ha])⟩
  · next r ha => exact ⟨.refl s, fun hne => absurd ha (hne r)⟩
  · next ha => exact ⟨.refl s, fun _ => (pathAgrees_iff _).mpr (by simp [ha])⟩

/-- An own word that completes, with what it writes and clears, and the face then released. -/
theorem stepKept_ownWord {s t : State} (h : StoreKept s t) (ha : t.access = s.access) (hf : s.face ≠ .host) :
    StepKept s t.releaseFace := by
  obtain ⟨hstore, hagrees⟩ := releaseFace_keeps t
  exact ⟨h.trans hstore, fun hs => hagrees (ha ▸ hs.not_onFace hf)⟩

/-- An own word that begins finds the face IDLE, and so no access on it or waiting for it. -/
theorem pathAgrees_of_started {s t : State} (hs : PathAgrees s) (hi : s.face = .idle) (ha : t.access = s.access)
    (hf : t.face ≠ .host) : PathAgrees t :=
  pathAgrees_of_resting (ha ▸ hs.not_waiting hi) (ha ▸ hs.not_onFace (by simp [hi])) hf

theorem stepKept_startCorrection (s : State) : StepKept s s.startCorrection := by
  unfold State.startCorrection
  split
  · next hi _ =>
    have hstarted (p : IntentPos) : StepKept s { s with face := .correction p (s.copy p) } :=
      ⟨.refl s, fun hs => pathAgrees_of_started hs hi rfl (by simp)⟩
    split
    · split
      · exact ((PathStands.refl s).raiseCheck _).stepKept
      · exact hstarted _
    · exact hstarted _
  · exact .refl s

theorem stepKept_completeCorrection (s : State) : StepKept s s.completeCorrection := by
  unfold State.completeCorrection
  split
  · next p v hf =>
    have hwritten := (StoreKept.refl s).writeMem (addressOf s.windowBase p) .both v
    refine stepKept_ownWord ?_ ?_ (by simp [hf])
    · unfold State.settleMark
      split
      · exact hwritten.filterMarks _
      · exact hwritten
    · unfold State.settleMark
      split <;> rfl
  all_goals exact .refl s

theorem stepKept_startRing (s : State) : StepKept s s.startRing := by
  unfold State.startRing
  split
  · next hi _ _ =>
    split
    · exact ⟨.refl s, fun hs => pathAgrees_of_started hs hi rfl (by simp)⟩
    · split
      · exact .refl s
      · exact ⟨.refl s, fun hs => pathAgrees_of_started hs hi rfl (by simp)⟩
  · exact .refl s

theorem PathStands.ringProgress {r s : State} (h : PathStands r s) : PathStands r s.ringProgress := by
  unfold State.ringProgress
  split
  · split
    · exact h
    · obtain ⟨ring, slots, haccept⟩ := State.acceptRecord_eq (s.modRing (fun x =>
        { x with producer := (x.producer + 1) % s.control.capacity, records := x.records.drop 1, progress := .none }))
      rw [State.advanceProducer, haccept]
      exact h
  · exact h

theorem stepKept_completeRing (s : State) : StepKept s s.completeRing := by
  unfold State.completeRing
  split
  · next a v hf =>
    have hwritten := (StoreKept.refl s).writeMem a .both v
    obtain ⟨hstore, haccess, -⟩ := (PathStands.refl (s.writeMem a .both v)).ringProgress
    exact stepKept_ownWord (hwritten.trans hstore) haccess (by simp [hf])
  all_goals exact .refl s

/-! ### Resets (R26, R134) -/

theorem stepKept_holdReset (s : State) : StepKept s s.holdReset :=
  ⟨(StoreKept.refl s).cutOff, fun _ => (pathAgrees_iff _).mpr (by simp [State.holdReset])⟩

/-- A full reset keeps the memory, less an own word cut off, and marks every position (R130, R134). -/
theorem stepKept_fullReset (s : State) (pins : Pins) : StepKept s (s.fullReset pins) := by
  obtain ⟨hmem, -⟩ := (StoreKept.refl s).cutOff
  exact ⟨⟨hmem, fun _ => risingIn_allPositions.rising⟩,
    fun _ => (pathAgrees_iff _).mpr (by simp [State.fullReset, State.afterFullReset])⟩

/-! ### Every step -/

theorem stepKept_exec {s t : State} (c : Instr) (hx : exec c s = .next t) : StepKept s t := by
  have h := PathStands.refl s
  cases c <;> cases hx
  case fullReset pins => exact stepKept_fullReset s pins
  case resetHeld => exact stepKept_holdReset s
  all_goals refine StepKept.running ?_
  case layoutReset => exact h.layoutReset.stepKept
  case clearAllLockouts => exact (h.inFreeOrder s.clearable (fun d _ ht => ht.clearLockout d)).stepKept
  case lockFreeze => exact h.stepKept
  case unknownCommandCode code => exact (h.command code).stepKept
  case clearLockout d => exact (h.clearLockout d).stepKept
  case clearFlags d => exact (h.clearFlagsAt d).stepKept
  case hostIntentWrite d v l => exact stepKept_wholeAccess s _ (h.writeHostIntent d v l)
  case districtWordWrite d w v l => exact stepKept_wholeAccess s _ (h.writeDistrictWord d w.succ v l)
  case adjacencyWrite j v l => exact stepKept_wholeAccess s _ (h.storeIntent _ _)
  case feedSettingWrite k x v l => exact stepKept_wholeAccess s _ (h.writeFeed k x v l)
  case controlSettingWrite x v l => exact stepKept_wholeAccess s _ (h.storeIntent _ _)
  case attemptLimitWrite v l => exact stepKept_wholeAccess s _ (h.writeAttemptLimit v l)
  case faultMaskWrite v l => exact stepKept_wholeAccess s _ (h.storeIntent _ _)
  case ringSettingWrite x v l => exact stepKept_wholeAccess s _ (h.writeRingSetting x v l)
  case consumerIndexWrite v l => exact stepKept_wholeAccess s _ (h.storeIntent _ _)
  case lockSetWrite g v l => exact stepKept_wholeAccess s _ (h.writeLock g v l)
  case flagsRead d l => exact h.stepKept
  case lastResetCauseRead l => exact h.stepKept
  case hostIntentRead p l => exact stepKept_hostRead s p l
  case hostAccessBegin x => exact stepKept_beginAccess s x
  case hostAccessEnd => exact stepKept_endAccess s
  case accessDrop => exact stepKept_dropAccess s
  case correctionWordStart => exact stepKept_startCorrection s
  case correctionWordComplete => exact stepKept_completeCorrection s
  case ringWordStart => exact stepKept_startRing s
  case ringWordComplete => exact stepKept_completeRing s
  case holdAssert => exact h.assertHold.stepKept
  case holdRelease => exact h.releaseHold.stepKept
  case boosterLineLow k => exact (h.lineLow k).stepKept
  case boosterLineHigh k => exact (h.lineHigh k).stepKept
  case settleExpiry k => exact (h.settleExpires k).stepKept
  case drainExpiry => exact h.drainExpires.stepKept
  case holdoffExpiry d => exact (h.holdoffExpires d).stepKept
  case provingExpiry d => exact (h.provingExpires d).stepKept
  case quietExpiry d => exact (h.quietExpires d).stepKept
  case gatheringTimerExpiry n => exact (h.gatheringExpires n).stepKept
  case stepTimerExpiry e => exact (h.stepExpires e).stepKept
  case poll => exact h.beginExchange.stepKept
  case report x => exact (h.endExchange (fun y _ ht => ht.judgeReport x y)).stepKept
  case missTimeout | missGap => exact (h.endExchange (fun y _ ht => ht.missNode y.node)).stepKept

/-- The command at the front of the queue, or a microsecond of time. -/
theorem stepKept_step {s t : State} (hstep : step s = .next t) : StepKept s t := by
  unfold step at hstep
  split at hstep
  · next c rest _ =>
    have hrest : StepKept s { s with pending := rest } := .refl s
    exact hrest.trans (stepKept_exec c hstep)
  · cases hstep
    exact StepKept.running (.refl s)

/-- Settles O53: every write of the memory keeps its canonical form. -/
theorem stepKeepsMemoryCanonical : Obligations.StepKeepsMemoryCanonical := fun _ _ hs hstep => by
  obtain ⟨⟨hmem, -⟩, -⟩ := stepKept_step hstep
  exact hmem hs

/-- Settles O57: a mark joins at its place by offset, and marks are cleared where they stand. -/
theorem stepKeepsMarksInOrder : Obligations.StepKeepsMarksInOrder := fun _ _ hs hstep => by
  obtain ⟨⟨-, hmarks⟩, -⟩ := stepKept_step hstep
  exact hmarks hs

/-- Settles O58: accesses are placed, ended and dropped on the access path alone. -/
theorem stepKeepsAccessAndFaceAgreeing : Obligations.StepKeepsAccessAndFaceAgreeing := fun _ _ hs hstep => by
  obtain ⟨-, hagrees⟩ := stepKept_step hstep
  exact hagrees hs

end Sys2Proof.Machine
end

section
/-! SUPPORT. Host accesses as the host sees them (R123 to R129, R132, R134): what a read finds, an access placed, one
that ends, and the correction word (R131). -/

namespace Sys2Proof.Machine

open Sys2Proof

/-! ### RESET held (R134) -/

/-- Settles O3: every other command runs its effect only while RESET is released. -/
theorem heldResetTakesNoCommand : Obligations.HeldResetTakesNoCommand := by
  intro s c hr hfull hheld
  cases c
  case fullReset pins => exact absurd rfl (hfull pins)
  case resetHeld => exact absurd rfl hheld
  all_goals exact congrArg Host.Outcome.next (s.running_of_held _ hr)

/-- An own word cut off spoils its word of memory, by a free value (log 10), and nothing else. -/
theorem State.cutOff_eq (s : State) : ∃ mem choices, s.cutOff = { s with mem := mem, choices := choices } := by
  unfold State.cutOff
  split <;> exact ⟨_, _, rfl⟩

/-- Settles O4: beside the word cut off, only the fields of the access, the faces and the exchange are set. -/
theorem resetHeldAbandonsAccesses : Obligations.ResetHeldAbandonsAccesses := by
  intro s
  have hmem : SameBytesOutside s s.holdReset s.ownWordAddress := sameBytesOutside_cutOff s s.holdReset rfl
  have hfault : s.holdReset.faultAsserted = false := by simp [State.faultAsserted, State.holdReset]
  refine ⟨s.holdReset, rfl, rfl, rfl, rfl, rfl, rfl, hfault, rfl, ?_⟩
  obtain ⟨mem, choices, hcut⟩ := s.cutOff_eq
  rw [State.holdReset, hcut] at hmem ⊢
  exact ⟨rfl, rfl, rfl, rfl, rfl, rfl, rfl, rfl, rfl, rfl, rfl, rfl, rfl, rfl, rfl, rfl, rfl, rfl, rfl, rfl, rfl, hmem⟩

/-! ### What a read of an intent word finds (R21, R22, R126) -/

theorem districtOf_eq_some {p : IntentPos} {d : DistrictId} (h : districtOf p = some d) : ∃ w, p = .district d w := by
  cases p with
  | district e w =>
    cases h
    exact ⟨w, rfl⟩
  | control | feed | adjacency => cases h

section
variable {s : State} {p : IntentPos}

theorem State.servesCopy_of_valid (hm : s.marked p = true) (hv : s.ofInvalid p = false) : s.servesCopy p = true := by
  simp [State.servesCopy, hm, hv]

theorem State.servesCopy_of_memory (h : s.marked p = false ∨ s.ofInvalid p = true) : s.servesCopy p = false := by
  rcases h with h | h <;> simp [State.servesCopy, h]

/-- A context that is read without a check error stands. -/
theorem State.checkRead_of_passes (h : ∀ d, districtOf p = some d → s.passes d) : s.checkRead p = s := by
  unfold State.checkRead
  split
  · next d hd => simp [h d hd]
  · rfl

/-- A word that memory answers is read without a check. -/
theorem State.checkRead_of_memory (h : s.servesCopy p = false) : s.checkRead p = s := by
  unfold State.checkRead
  split <;> simp [h]

variable {d : DistrictId}

/-- A marked word whose context fails its check takes the check error. -/
theorem State.checkRead_of_fails (hd : districtOf p = some d) (hm : s.marked p = true) (hf : ¬s.passes d) :
    s.checkRead p = s.raiseCheck d := by
  have hfails : s.checkFails d = true := eq_true_of_ne_false hf
  have hvalid : s.ofInvalid p = false := by
    obtain ⟨w, rfl⟩ := districtOf_eq_some hd
    exact eq_false_of_ne_true (fun hi => hf (s.checkFails_of_invalid d hi))
  simp [State.checkRead, hd, State.servesCopy_of_valid hm hvalid, hfails]

/-- A check error leaves the context invalid, whatever notice and scan follow it. -/
theorem State.invalid_raiseCheck (s : State) (d : DistrictId) : ((s.raiseCheck d).dist d).invalid = true := by
  have herror : ((s.checkError d).dist d).invalid = true := by
    simp [State.checkError, State.unmarkDistrict, State.dist, State.modDist, District.latchCheckError]
  have hkept : ContextsKept (s.checkError d) (s.raiseCheck d) := (ContextsKept.refl _).finish s d
  exact (hkept d).invalid herror

/-- After its check error a word is memory's to answer (R126). -/
theorem State.servesCopy_raiseCheck (s : State) (hd : districtOf p = some d) :
    (s.raiseCheck d).servesCopy p = false := by
  obtain ⟨w, rfl⟩ := districtOf_eq_some hd
  exact State.servesCopy_of_memory (.inr (s.invalid_raiseCheck d))

end

/-! ### An access placed (R126, R128) -/

section
variable {s : State} {r : Request}

theorem State.seekFace_of_idle (hi : s.face = .idle) :
    State.seekFace r s = ({ s with face := .host, access := .onFace r } : State).carryOut r := by
  simp only [State.seekFace, hi]

theorem State.seekFace_of_ownWord (hi : s.face ≠ .idle) (hh : s.face ≠ .host) :
    State.seekFace r s = { s with access := .waiting r } := by
  unfold State.seekFace
  split
  case h_1 hf => exact absurd hf hi
  case h_4 hf => exact absurd hf hh
  all_goals rfl

/-- A read that takes an IDLE face returns memory's word. -/
theorem State.seekFace_read (hi : s.face = .idle) (hop : r.op = .read) : State.seekFace r s =
    { s with
      face := .host
      access := .onFace r
      readData := onLanes r.lanes (Memory.word s.mem r.addr) } := by
  simp only [State.seekFace_of_idle hi, State.carryOut, hop]
  rfl

/-- A write outside the intent words is forwarded to memory (R126). -/
theorem State.carryOut_write_owner {v : Word} (ht : s.target r = .owner) (hop : r.op = .write v) :
    s.carryOut r = s.writeMem r.addr r.lanes v := by
  fun_cases State.carryOut <;> simp_all

/-- A write of an intent word is taken by the Image Decoder (R126, R136). -/
theorem State.carryOut_write_intent {p : IntentPos} {v : Word} (ht : s.target r = .intent p) (hop : r.op = .write v) :
    s.carryOut r = s.takeIntentWrite p v r.lanes := by
  fun_cases State.carryOut <;> simp_all

theorem State.seekFace_write_owner {v : Word} (hi : s.face = .idle) (hop : r.op = .write v)
    (ht : refAt s.windowBase r.addr = .owner) : State.seekFace r s =
    { s with face := .host, access := .onFace r, mem := Memory.write s.mem r.addr r.lanes v } :=
  (State.seekFace_of_idle hi).trans (State.carryOut_write_owner ht hop)

theorem State.seekFace_write_intent {p : IntentPos} {v : Word} (hi : s.face = .idle) (hop : r.op = .write v)
    (ht : refAt s.windowBase r.addr = .intent p) : State.seekFace r s =
    ({ s with face := .host, access := .onFace r } : State).takeIntentWrite p v r.lanes :=
  (State.seekFace_of_idle hi).trans (State.carryOut_write_intent ht hop)

/-- Only a read of an intent word is checked when it is taken. -/
theorem State.checkRequest_of_unread (h : ∀ p, s.target r = .intent p → r.op ≠ .read) : s.checkRequest r = s := by
  fun_cases State.checkRequest
  · next p hop ht => exact absurd hop (h p ht)
  · rfl

theorem State.checkRequest_of_read {p : IntentPos} (ht : s.target r = .intent p) (hop : r.op = .read) :
    s.checkRequest r = s.checkRead p := by
  fun_cases State.checkRequest <;> simp_all

theorem State.needsFace_owner (ht : s.target r = .owner) : s.needsFace r = true := by
  fun_cases State.needsFace <;> simp_all

theorem State.needsFace_write {p : IntentPos} {v : Word} (ht : s.target r = .intent p) (hop : r.op = .write v) :
    s.needsFace r = true := by
  fun_cases State.needsFace <;> simp_all

theorem State.needsFace_read {p : IntentPos} (ht : s.target r = .intent p) (hop : r.op = .read) :
    s.needsFace r = !s.servesCopy p := by
  fun_cases State.needsFace <;> simp_all

theorem State.serve_read {p : IntentPos} (ht : s.target r = .intent p) (hop : r.op = .read) :
    s.serve r = s.returnWord r.lanes (s.copy p) := by
  fun_cases State.serve <;> simp_all

theorem State.placeAccess_of_needs (h : (s.checkRequest r).needsFace r = true) :
    s.placeAccess r = State.seekFace r (s.checkRequest r) := by
  simp only [State.placeAccess, h, if_true]

theorem State.placeAccess_of_served (h : (s.checkRequest r).needsFace r = false) :
    s.placeAccess r = { (s.checkRequest r).serve r with access := .served r } := by
  simp only [State.placeAccess, h, Bool.false_eq_true, if_false]

/-- An access outside the image's own words seeks the face unchecked. -/
theorem State.placeAccess_owner (ht : refAt s.windowBase r.addr = .owner) : s.placeAccess r = State.seekFace r s := by
  have hcheck : s.checkRequest r = s :=
    State.checkRequest_of_unread (fun p hp => absurd (hp.symm.trans ht) (by simp))
  rw [State.placeAccess_of_needs (by rw [hcheck, State.needsFace_owner ht]), hcheck]

theorem State.placeAccess_write {p : IntentPos} {v : Word} (ht : refAt s.windowBase r.addr = .intent p)
    (hop : r.op = .write v) : s.placeAccess r = State.seekFace r s := by
  have hcheck : s.checkRequest r = s := State.checkRequest_of_unread (fun _ _ => by simp [hop])
  rw [State.placeAccess_of_needs (by rw [hcheck, State.needsFace_write ht hop]), hcheck]

/-- A read of an intent word is checked, and then served from the copy or from memory. -/
theorem State.placeAccess_read {p : IntentPos} (ht : refAt s.windowBase r.addr = .intent p) (hop : r.op = .read) :
    s.placeAccess r =
      if (s.checkRead p).servesCopy p then
        { s.checkRead p with access := .served r, readData := onLanes r.lanes ((s.checkRead p).copy p) }
      else State.seekFace r (s.checkRead p) := by
  have hcheck : s.checkRequest r = s.checkRead p := State.checkRequest_of_read ht hop
  have htarget : (s.checkRead p).target r = .intent p := by
    rw [State.target, (calm_checkRead s p).windowBase, ht]
  have hneeds := State.needsFace_read htarget hop
  split
  · next hcopy =>
    rw [State.placeAccess_of_served (by rw [hcheck, hneeds, hcopy]; rfl), hcheck, State.serve_read htarget hop]
    rfl
  · next hcopy =>
    rw [State.placeAccess_of_needs (by rw [hcheck, hneeds, eq_false_of_ne_true hcopy]; rfl), hcheck]

section
variable {p : IntentPos} (ht : refAt s.windowBase r.addr = .intent p) (hop : r.op = .read)
include ht hop

theorem State.placeAccess_read_copy (hm : s.marked p = true) (hv : s.ofInvalid p = false)
    (hp : ∀ d, districtOf p = some d → s.passes d) :
    s.placeAccess r = { s with access := .served r, readData := onLanes r.lanes (s.copy p) } := by
  rw [State.placeAccess_read ht hop, State.checkRead_of_passes hp, if_pos (State.servesCopy_of_valid hm hv)]

theorem State.placeAccess_read_memory (h : s.marked p = false ∨ s.ofInvalid p = true) :
    s.placeAccess r = State.seekFace r s := by
  have hmemory := State.servesCopy_of_memory h
  rw [State.placeAccess_read ht hop, State.checkRead_of_memory hmemory, if_neg (by simp [hmemory])]

theorem State.placeAccess_read_fails {d : DistrictId} (hd : districtOf p = some d) (hm : s.marked p = true)
    (hf : ¬s.passes d) : s.placeAccess r = State.seekFace r (s.raiseCheck d) := by
  rw [State.placeAccess_read ht hop, State.checkRead_of_fails hd hm hf,
    if_neg (by simp [s.servesCopy_raiseCheck hd])]

end

/-- A read that takes an IDLE face after a check error returns memory's word, which the error does not touch. -/
theorem State.seekFace_raiseCheck_read (d : DistrictId) (hi : s.face = .idle) (hop : r.op = .read) :
    State.seekFace r (s.raiseCheck d) =
      { s.raiseCheck d with
        face := .host
        access := .onFace r
        readData := onLanes r.lanes (Memory.word s.mem r.addr) } := by
  have hcalm := calm_raiseCheck s d
  rw [State.seekFace_read (hcalm.face.trans hi) hop, ← hcalm.mem]

/-- An access placed while the face is IDLE does not wait. -/
theorem State.waitAsserted_placeAccess (hi : s.face = .idle) : (s.placeAccess r).waitAsserted = false := by
  have hchecked : (s.checkRequest r).face = .idle := (calm_checkRequest s r).face.trans hi
  cases hneeds : (s.checkRequest r).needsFace r with
  | true =>
    obtain ⟨-, haccess, -⟩ :=
      (PathStands.refl { s.checkRequest r with face := .host, access := .onFace r }).carryOut r
    rw [State.placeAccess_of_needs hneeds, State.seekFace_of_idle hchecked, State.waitAsserted, haccess]
  | false => rw [State.placeAccess_of_served hneeds]; rfl

end

/-! ### The commands of a host access (R123, R126, R128, R129) -/

theorem exec_hostAccessBegin {s : State} (r : Request) (hr : s.inReset = false) (ha : s.access = .none) :
    exec (.hostAccessBegin r) s = .next (s.placeAccess r) := by
  have h : exec (.hostAccessBegin r) s = .next (s.running (State.beginAccess r)) := rfl
  simp only [h, s.running_of_run _ hr, State.beginAccess, ha]

theorem exec_hostIntentRead {s : State} (p : IntentPos) (l : Lanes) (hr : s.inReset = false) :
    exec (.hostIntentRead p l) s = .next (State.hostRead p l s) :=
  congrArg Host.Outcome.next (s.running_of_run _ hr)

section
variable {s : State} {p : IntentPos} {l : Lanes}

/-- A read from memory takes an IDLE face for its whole access (log 4). -/
theorem State.hostRead_of_idle (hm : (s.checkRead p).servesCopy p = false) (hi : (s.checkRead p).face = .idle) :
    State.hostRead p l s = (s.checkRead p).returnWord l
      (Memory.word (s.checkRead p).mem (addressOf (s.checkRead p).windowBase p)) := by
  simp [State.hostRead, hm, State.wholeAccess, hi]

/-- A read from memory waits behind an own word. -/
theorem State.hostRead_of_ownWord (hm : s.marked p = false ∨ s.ofInvalid p = true) (hi : s.face ≠ .idle)
    (hh : s.face ≠ .host) (ha : s.access = .none) : State.hostRead p l s =
    { s with access := .waiting { addr := addressOf s.windowBase p, op := .read, lanes := l } } := by
  have hmemory := State.servesCopy_of_memory hm
  unfold State.hostRead
  simp only [State.checkRead_of_memory hmemory, hmemory, Bool.false_eq_true, if_false, State.wholeAccess]
  split
  case h_1 hf => exact absurd hf hi
  case h_2 hf => exact absurd hf hh
  all_goals simp only [ha]; rfl

end

/-- Settles O31: by whether the copy or memory answers, and what the check of the context says. -/
theorem hostIntentReadServedFromCopyOrMemory : Obligations.HostIntentReadServedFromCopyOrMemory := by
  intro s p l hr
  simp only [exec_hostIntentRead p l hr]
  refine ⟨fun hm hv hp => ?_, fun hm hi => ?_, fun hm hi hh ha => ?_, fun d hd hm hf hi => ?_⟩
  · simp [State.hostRead, State.checkRead_of_passes hp, State.servesCopy_of_valid hm hv, State.returnWord]
  · have hmemory := State.servesCopy_of_memory hm
    have hread := State.checkRead_of_memory hmemory
    rw [State.hostRead_of_idle (by rwa [hread]) (by rwa [hread]), hread]
    rfl
  · rw [State.hostRead_of_ownWord hm hi hh ha]
  · have hread := State.checkRead_of_fails hd hm hf
    have hcalm := calm_raiseCheck s d
    rw [State.hostRead_of_idle (by rw [hread, s.servesCopy_raiseCheck hd]) (by rw [hread, hcalm.face, hi]), hread,
      ← hcalm.mem, ← hcalm.windowBase]
    rfl

/-- Settles O32: by the word addressed, the face, and for a read of an intent word what answers it. -/
theorem hostAccessTakesFaceOrWaits : Obligations.HostAccessTakesFaceOrWaits := by
  intro s r hr ha
  simp only [exec_hostAccessBegin r hr ha]
  refine ⟨fun ht hi hop => ?_, fun v ht hi hop => ?_, fun p v ht hi hop => ?_, fun hneeds hi hh => ?_,
    fun p ht hop => ⟨fun hm hv hp => ?_, fun hm hi => ?_, fun hm hi hh => ?_,
      fun d hd hm hf => ⟨fun hi => ?_, fun hi hh => ?_⟩⟩⟩
  · rw [State.placeAccess_owner ht, State.seekFace_read hi hop]
  · rw [State.placeAccess_owner ht, State.seekFace_write_owner hi hop ht]
  · rw [State.placeAccess_write ht hop, State.seekFace_write_intent hi hop ht]
  · have hplaced : s.placeAccess r = State.seekFace r s := by
      rcases hneeds with ht | ⟨p, v, ht, hop⟩
      · exact State.placeAccess_owner ht
      · exact State.placeAccess_write ht hop
    rw [hplaced, State.seekFace_of_ownWord hi hh]
    exact ⟨_, rfl, rfl, rfl⟩
  · rw [State.placeAccess_read_copy ht hop hm hv hp]
  · rw [State.placeAccess_read_memory ht hop hm, State.seekFace_read hi hop]
  · rw [State.placeAccess_read_memory ht hop hm, State.seekFace_of_ownWord hi hh]
  · rw [State.placeAccess_read_fails ht hop hd hm hf, State.seekFace_raiseCheck_read d hi hop]
  · have hface := (calm_raiseCheck s d).face
    rw [State.placeAccess_read_fails ht hop hd hm hf,
      State.seekFace_of_ownWord (by rwa [hface]) (by rwa [hface])]

/-- A WAITING access that is dropped, or ended before it was taken (R129). -/
theorem exec_drop_of_waiting {s : State} {r : Request} {c : Instr} (hr : s.inReset = false)
    (ha : s.access = .waiting r) (hc : c = .accessDrop ∨ c = .hostAccessEnd) : exec c s = .next s.dropAccess := by
  rcases hc with rfl | rfl
  · exact congrArg Host.Outcome.next (s.running_of_run _ hr)
  · have h : exec .hostAccessEnd s = .next (s.running State.endAccess) := rfl
    simp only [h, s.running_of_run _ hr, State.endAccess, ha]

/-- Settles O34, by the access that ends. -/
theorem hostAccessEndsOrIsDropped : Obligations.HostAccessEndsOrIsDropped := by
  intro s r hr
  have hend : exec .hostAccessEnd s = .next s.endAccess := congrArg Host.Outcome.next (s.running_of_run _ hr)
  refine ⟨fun ha => ?_, fun ha => ?_, fun ha hop c hc => ?_, fun v ha hop c hc => ?_⟩
  · simp only [hend, State.endAccess, ha]
  · simp only [hend, State.endAccess, ha]
  · rw [exec_drop_of_waiting hr ha hc]
    simp only [State.dropAccess, ha, hop]
    rfl
  · rw [exec_drop_of_waiting hr ha hc]
    simp only [State.dropAccess, ha, hop]

/-! ### The correction word (R131, R132, R133) -/

section
variable {s : State} {p : IntentPos}

/-- The word of the lowest mark is taken with the copy's value, or its check error is. -/
theorem State.startCorrection_eq {rest : List IntentPos} (hi : s.face = .idle) (hc : s.corrections = p :: rest) :
    ((∀ d, districtOf p = some d → s.passes d) →
      s.startCorrection = { s with face := .correction p (s.copy p) })
    ∧ ∀ d, districtOf p = some d → ¬s.passes d → s.startCorrection = s.raiseCheck d := by
  have hpassed (d : DistrictId) (h : s.passes d) : s.checkFails d = false := h
  refine ⟨fun hp => ?_, fun d hd hf => ?_⟩
  · unfold State.startCorrection
    simp only [hi, hc]
    split
    · next d hd => simp [hpassed d (hp d hd)]
    · rfl
  · simp [State.startCorrection, hi, hc, hd, eq_true_of_ne_false hf]

/-- The word written, and its mark settled: what the part does before the face is released. -/
def State.corrected (s : State) (p : IntentPos) (v : Word) : State :=
  { s with
    face := .idle
    mem := Memory.write s.mem (addressOf s.windowBase p) .both v
    corrections := if s.copy p = v then s.corrections.filter (fun q => q != p) else s.corrections }

/-- The copy does not change with the memory. -/
theorem State.copy_writeMem (a : WordAddr) (l : Lanes) (v : Word) : (s.writeMem a l v).copy p = s.copy p := by
  cases p <;> rfl

theorem State.settleMark_eq {v : Word} :
    { (s.writeMem (addressOf s.windowBase p) .both v).settleMark p v with face := .idle } = s.corrected p v := by
  rw [State.settleMark, State.copy_writeMem, State.corrected]
  split <;> rfl

theorem State.completeCorrection_eq {v : Word} (hf : s.face = .correction p v) : s.completeCorrection =
    ((s.writeMem (addressOf s.windowBase p) .both v).settleMark p v).releaseFace := by
  simp only [State.completeCorrection, hf]

/-- A word that completes frees the face, which a WAITING access takes at once (R128). -/
theorem State.completeCorrection_cases {v : Word} (hf : s.face = .correction p v) :
    ((∀ r, s.access ≠ .waiting r) → s.completeCorrection = s.corrected p v)
      ∧ ∀ r, s.access = .waiting r → s.completeCorrection = (s.corrected p v).placeAccess r := by
  have haccess : ((s.writeMem (addressOf s.windowBase p) .both v).settleMark p v).access = s.access := by
    unfold State.settleMark
    split <;> rfl
  rw [State.completeCorrection_eq hf, ← State.settleMark_eq]
  refine ⟨fun hw => ?_, fun r hw => ?_⟩
  · unfold State.releaseFace
    split
    · next r ha => exact absurd (haccess ▸ ha) (hw r)
    all_goals rfl
  · simp only [State.releaseFace, haccess, hw]

end

/-- Settles O35: the start by the check of the lowest mark's context, the completion by the access that waits. -/
theorem correctionWordWritesCopyAndClearsMark : Obligations.CorrectionWordWritesCopyAndClearsMark := by
  intro s hr
  have hstart : exec .correctionWordStart s = .next s.startCorrection :=
    congrArg Host.Outcome.next (s.running_of_run _ hr)
  have hcomplete : exec .correctionWordComplete s = .next s.completeCorrection :=
    congrArg Host.Outcome.next (s.running_of_run _ hr)
  refine ⟨fun p rest hi hc _ => ?_, fun p v u hf hu => ?_⟩
  · obtain ⟨hpasses, hfails⟩ := State.startCorrection_eq hi hc
    rw [hstart]
    exact ⟨fun hp => by rw [hpasses hp], fun d hd hf => by rw [hfails d hd hf]⟩
  · obtain ⟨hfree, hwaits⟩ := State.completeCorrection_cases hf
    have hcorrected : s.corrected p v = u := hu.symm
    rw [hcorrected] at hfree hwaits
    have hidle : u.face = .idle := by rw [hu]
    have hbase : u.windowBase = s.windowBase := by rw [hu]
    have hpasses (d : DistrictId) : u.passes d ↔ s.passes d := by rw [hu]; rfl
    simp only [hcomplete, ← hbase, ← hpasses]
    refine ⟨fun hw => by rw [hfree hw], fun r hw => ⟨u.placeAccess r, by rw [hwaits r hw], fun ht hop => ?_,
      fun x ht hop => ?_, fun q x ht hop => ?_, fun q ht hop => ⟨fun hm hv hp => ?_, fun hm => ?_,
        fun d hd hm hfail => ?_⟩, fun _ => State.waitAsserted_placeAccess hidle⟩⟩
    · rw [State.placeAccess_owner ht, State.seekFace_read hidle hop]
    · rw [State.placeAccess_owner ht, State.seekFace_write_owner hidle hop ht]
    · rw [State.placeAccess_write ht hop, State.seekFace_write_intent hidle hop ht]
    · exact State.placeAccess_read_copy ht hop hm hv hp
    · rw [State.placeAccess_read_memory ht hop hm, State.seekFace_read hidle hop]
    · rw [State.placeAccess_read_fails ht hop hd hm hfail, State.seekFace_raiseCheck_read d hidle hop]

end Sys2Proof.Machine
end

section
/-! SUPPORT. The live words as a host reads them: each field at its bits (R127, R144, R147, R148, R171 to R174). -/

namespace Sys2Proof.Machine

open Sys2Proof

/-! ### The bits of a word -/

theorem getLsbD_eq_field (w : Word) (i : Nat) : w.getLsbD i = decide (field w i 1 = 1) := by
  rw [← BitVec.testBit_toNat, Nat.testBit_eq_decide_div_mod_eq, field, Nat.pow_one]

theorem decide_ofMark (b : Bool) : decide (ofMark b = 1) = b := by cases b <;> rfl

theorem ofMark_le_one (b : Bool) : ofMark b ≤ 1 := by cases b <;> decide

/-- A bit of a field is a bit of the word. -/
theorem getLsbD_of_field_eq_zero {w : Word} {lo len i : Nat} (h : field w lo len = 0) (hlo : lo ≤ i)
    (hi : i < lo + len) : w.getLsbD i = false := by
  obtain ⟨k, rfl⟩ := Nat.exists_eq_add_of_le hlo
  have hbit : (field w lo len).testBit k = w.getLsbD (lo + k) := by
    rw [field, ← Nat.shiftRight_eq_div_pow, Nat.testBit_mod_two_pow, Nat.testBit_shiftRight, BitVec.testBit_toNat,
      decide_eq_true (by omega), Bool.true_and]
  rw [← hbit, h, Nat.zero_testBit]

/-- A word shows nothing outside its fields where each run of the other bits is 0. -/
theorem and_eq_zero_of_runs {w mask : Word} (runs : List (Nat × Nat))
    (hmask : ∀ i : Fin 16, mask.getLsbD i.val = true → ∃ x ∈ runs, x.1 ≤ i.val ∧ i.val < x.1 + x.2)
    (h : runs.Forall (fun x => field w x.1 x.2 = 0)) : w &&& mask = 0 := by
  apply BitVec.eq_of_getLsbD_eq
  intro i hi
  rw [BitVec.getLsbD_and]
  cases hm : mask.getLsbD i with
  | false => simp
  | true =>
    obtain ⟨x, hx, hlo, hhi⟩ := hmask ⟨i, hi⟩ hm
    simp [getLsbD_of_field_eq_zero (List.forall_iff_forall_mem.mp h x hx) hlo hhi]

/-- A field of a word given as a number, as a remainder of quotients of it. -/
theorem field_ofNat_eq (n lo len : Nat) : field (BitVec.ofNat 16 n) lo len = n % 65536 / 2 ^ lo % 2 ^ len := by
  rw [field, BitVec.toNat_ofNat]

/-- The two lanes of a word are its two bytes. -/
theorem field_ofLanes (upper lower : Byte) :
    field (ofLanes upper lower) 0 8 = lower.toNat ∧ field (ofLanes upper lower) 8 8 = upper.toNat := by
  have hu := upper.isLt
  have hl := lower.isLt
  have hw : (ofLanes upper lower).toNat = upper.toNat * 256 + lower.toNat := by
    rw [ofLanes, BitVec.toNat_append, ← Nat.shiftLeft_add_eq_or_of_lt hl, Nat.shiftLeft_eq]
  simp only [field, hw]
  omega

/-! ### One word, field by field (R171 to R173) -/

theorem Node.field_word (x : Node) : field x.word 0 2 = x.state.code ∧ field x.word 4 2 = x.misses % 4
    ∧ field x.word 8 1 = ofMark x.restarted ∧ x.word &&& 0xFECC = 0 := by
  have hcode : x.state.code < 4 := by cases x.state <;> decide
  have hrestarted := ofMark_le_one x.restarted
  refine ⟨?_, ?_, ?_, and_eq_zero_of_runs [(2, 2), (6, 2), (9, 7)] (by decide) ⟨?_, ?_, ?_⟩⟩
  all_goals simp only [Node.word, List.Forall, field_ofNat_eq, place]; omega

theorem Feed.field_word (x : Feed) : field x.word 0 2 = x.state.code ∧ field x.word 4 3 = x.engaged % 8
    ∧ field x.word 8 6 = x.stress % 64 ∧ x.word &&& 0xC08C = 0 := by
  have hcode : x.state.code < 4 := by cases x.state <;> decide
  refine ⟨?_, ?_, ?_, and_eq_zero_of_runs [(2, 2), (7, 1), (14, 2)] (by decide) ⟨?_, ?_, ?_⟩⟩
  all_goals simp only [Feed.word, List.Forall, field_ofNat_eq, place]; omega

theorem State.openCount_le (s : State) : s.openCount ≤ 4 :=
  (List.length_filter_le _ _).trans (by simp)

theorem State.field_statusWord (s : State) : field s.statusWord 0 1 = ofMark (!s.corrections.isEmpty)
    ∧ field s.statusWord 1 1 = ofMark s.hold ∧ field s.statusWord 2 1 = ofMark s.faultAsserted
    ∧ field s.statusWord 4 3 = s.openCount
    ∧ (∀ e : EngineId, field s.statusWord (8 + e.val) 1 = ofMark (s.engine e).district.isSome)
    ∧ s.statusWord &&& 0xF088 = 0 := by
  have hmarks := ofMark_le_one (!s.corrections.isEmpty)
  have hhold := ofMark_le_one s.hold
  have hfault := ofMark_le_one s.faultAsserted
  have hopen := s.openCount_le
  have hbusy (e : EngineId) := ofMark_le_one (s.engine e).district.isSome
  have hzero := hbusy 0
  have hone := hbusy 1
  have htwo := hbusy 2
  have hthree := hbusy 3
  refine ⟨?_, ?_, ?_, ?_, fun e => ?_, and_eq_zero_of_runs [(3, 1), (7, 1), (12, 4)] (by decide) ⟨?_, ?_, ?_⟩⟩
  case refine_5 => match e with
    | 0 | 1 | 2 | 3 =>
      simp only [State.statusWord, field_ofNat_eq, place, Fin.coe_ofNat_eq_mod, Nat.reduceMod, Nat.reduceAdd]
      omega
  all_goals simp only [State.statusWord, List.Forall, field_ofNat_eq, place]; omega

theorem Feed.toNat_historyByte (x : Feed) (i : Nat) :
    (x.historyByte i).toNat = (x.history[i]?.map Fin.val).getD 0xFF := by
  unfold Feed.historyByte
  cases x.history[i]? with
  | none => rfl
  | some d => exact Nat.mod_eq_of_lt (Nat.lt_trans d.isLt (by decide))

theorem District.field_stateWord (x : District) : field x.stateWord 0 4 = x.state.code
    ∧ field x.stateWord 4 1 = x.polarity.code ∧ field x.stateWord 5 1 = ofMark x.mark
    ∧ field x.stateWord 6 1 = ofMark x.invalid ∧ field x.stateWord 7 1 = 0
    ∧ field x.stateWord 8 3 = x.attempts % 8 ∧ field x.stateWord 11 5 = x.reload.toNat := by
  have hcode : x.state.code < 16 := by cases x.state <;> decide
  have hpolarity : x.polarity.code < 2 := by cases x.polarity <;> decide
  have hmark := ofMark_le_one x.mark
  have hinvalid := ofMark_le_one x.invalid
  have hreload := x.reload.isLt
  refine ⟨?_, ?_, ?_, ?_, ?_, ?_, ?_⟩
  all_goals simp only [District.stateWord, field_ofNat_eq, place]; omega

theorem District.field_levelWord (x : District) : field x.levelWord 0 8 = x.current.toNat
    ∧ field x.levelWord 8 5 = x.level % 32 ∧ x.levelWord &&& 0xE000 = 0 := by
  have hcurrent := x.current.isLt
  refine ⟨?_, ?_, and_eq_zero_of_runs [(13, 3)] (by decide) ?_⟩
  all_goals simp only [District.levelWord, List.Forall, field_ofNat_eq, place]; omega

theorem District.field_causeWord (x : District) : field x.causeWord 0 3 = causeCode x.lastCause
    ∧ field x.causeWord 3 2 = x.role.code ∧ field x.causeWord 5 3 = x.slotCode
    ∧ field x.causeWord 8 8 = x.incidentCode := by
  have hcause : causeCode x.lastCause < 8 := by
    cases x.lastCause with
    | none => decide
    | some c => cases c <;> decide
  have hrole : x.role.code < 4 := by cases x.role <;> decide
  have hslot : x.slotCode < 8 := by
    unfold District.slotCode
    split <;> omega
  have hincident : x.incidentCode < 256 := by
    unfold District.incidentCode
    split
    · exact BitVec.isLt _
    · decide
  refine ⟨?_, ?_, ?_, ?_⟩
  all_goals simp only [District.causeWord, field_ofNat_eq, place]; omega

/-! ### The incident view (R148, R173) -/

section
variable {x : Slot} (h : x.state ≠ .free)
include h

theorem Slot.field_view_zero : field (x.view 0) 0 2 = x.state.code ∧ field (x.view 0) 8 8 = x.id.toNat
    ∧ x.view 0 &&& 0x00FC = 0 := by
  have hview : x.view 0 = BitVec.ofNat 16 (place 0 2 x.state.code + place 8 8 x.id.toNat) := if_neg h
  have hcode : x.state.code < 4 := by cases x.state <;> decide
  have hid := x.id.isLt
  refine ⟨?_, ?_, and_eq_zero_of_runs [(2, 6)] (by decide) ?_⟩
  all_goals simp only [hview, List.Forall, field_ofNat_eq, place]; omega

theorem Slot.field_view_one : field (x.view 1) 0 4 = x.classCode ∧ field (x.view 1) 9 1 = ofMark x.origin.isNone
    ∧ (∀ d : DistrictId, x.origin = some d → field (x.view 1) 4 5 = d.val)
    ∧ field (x.view 1) 10 6 = x.members.length % 64 := by
  have hview : x.view 1 = BitVec.ofNat 16 (place 0 4 x.classCode + x.originCode + place 10 6 x.members.length) :=
    if_neg h
  have hclass : x.classCode < 16 := by
    unfold Slot.classCode
    split
    · next c _ => cases c <;> decide
    · decide
  rw [hview]
  cases ho : x.origin with
  | none =>
    have hcode : x.originCode = place 9 1 1 := by rw [Slot.originCode, ho]
    refine ⟨?_, ?_, by simp, ?_⟩
    all_goals simp only [hcode, field_ofNat_eq, place, Option.isNone_none, ofMark, if_true]; omega
  | some d =>
    have hcode : x.originCode = place 4 5 d.val := by rw [Slot.originCode, ho]
    have hd := d.isLt
    refine ⟨?_, ?_, fun e he => ?_, ?_⟩
    case refine_3 => cases he; simp only [hcode, field_ofNat_eq, place]; omega
    all_goals simp only [hcode, field_ofNat_eq, place, Option.isNone_some, ofMark, Bool.false_eq_true, if_false]; omega

end

/-- The members, the restored set and the lockout set stand in two words each. -/
theorem Slot.view_halves {x : Slot} (h : x.state ≠ .free) (high : Bool) :
    x.view (cond high 3 2) = halfOf high (setOf (x.members.map Member.district))
      ∧ x.view (cond high 5 4) = halfOf high x.restored ∧ x.view (cond high 7 6) = halfOf high x.lockouts := by
  cases high <;> exact ⟨if_neg h, if_neg h, if_neg h⟩

/-! ### The sets of the summary block (R173) -/

theorem State.getLsbD_districtsWith (s : State) (P : District → Bool) (d : DistrictId) :
    (s.districtsWith P).getLsbD d.val = P (s.dist d) := by
  rw [State.districtsWith, getLsbD_setOf, Bool.eq_iff_iff]
  simp

theorem getLsbD_members (l : List Member) (d : DistrictId) :
    (setOf (l.map Member.district)).getLsbD d.val = l.any (fun m => m.district == d) := by
  rw [getLsbD_setOf, Bool.eq_iff_iff]
  simp

/-! ### The offsets of the live words (R171 to R173) -/

/-- The offset of a live word in the image. -/
def LiveWord.offset : LiveWord → Nat
  | .lastCommand => 0x002
  | .status => 0x004
  | .producerIndex => 0x008
  | .nodeState k => 0x030 + 2 * k.val
  | .feedState k => 0x088 + 16 * k.val
  | .feedHistory k false => 0x08A + 16 * k.val
  | .feedHistory k true => 0x08C + 16 * k.val
  | .withFlags high => 0x160 + 2 * high.toNat
  | .inLockout high => 0x164 + 2 * high.toNat
  | .inLive high => 0x168 + 2 * high.toNat
  | .queueView i => 0x180 + 2 * i.val
  | .incidentView n i => 0x1C0 + 16 * n.val + 2 * i.val
  | .districtState d => 0x20A + 32 * d.val
  | .districtLevel d => 0x20C + 32 * d.val
  | .districtCause d => 0x20E + 32 * d.val

theorem LiveWord.offset_lt (w : LiveWord) : w.offset < 0x1000 := by
  cases w with
  | lastCommand | status | producerIndex => decide
  | withFlags high | inLockout high | inLive high => cases high <;> decide
  | feedHistory k second => cases second <;> simp only [LiveWord.offset] <;> omega
  | nodeState | feedState | queueView | incidentView | districtState | districtLevel | districtCause =>
    simp only [LiveWord.offset]
    omega

/-- Each live word stands at its offset. -/
theorem wordAtOffset_offset (w : LiveWord) : wordAtOffset (w.offset / 2 * 2) = .live w := by
  cases w with
  | lastCommand | status | producerIndex => decide
  | nodeState k => revert k; decide
  | feedState k => revert k; decide
  | feedHistory k second => revert k second; decide
  | withFlags high | inLockout high | inLive high => revert high; decide
  | queueView i => revert i; decide
  | incidentView n i => revert n i; decide
  | districtState d | districtLevel d | districtCause d => revert d; decide

end Sys2Proof.Machine
end

section
/-! SUPPORT. Accesses the part answers or takes without a memory cycle (R126, R127, R147 to R149). -/

namespace Sys2Proof.Machine

open Sys2Proof

/-! ### An access served (R126) -/

section
variable {s : State} {r : Request}

/-- An access to a word of the part's own needs no memory face. -/
theorem State.needsFace_of_own (ho : s.target r ≠ .owner) (hi : ∀ p, s.target r ≠ .intent p) :
    s.needsFace r = false := by
  fun_cases State.needsFace <;> simp_all

/-- Such an access is SERVED at its beginning, whatever the memory face does. -/
theorem State.placeAccess_of_own (ho : s.target r ≠ .owner) (hi : ∀ p, s.target r ≠ .intent p) :
    s.placeAccess r = { s.serve r with access := .served r } := by
  have hcheck : s.checkRequest r = s := State.checkRequest_of_unread (fun p hp => absurd hp (hi p))
  rw [State.placeAccess_of_served (by rw [hcheck, State.needsFace_of_own ho hi]), hcheck]

/-- What each kind of the part's own words answers or takes. -/
theorem State.serve_flags {d : DistrictId} (ht : s.target r = .flags d) (hop : r.op = .read) :
    s.serve r = State.readFlags d r.lanes s := by
  fun_cases State.serve <;> simp_all

theorem State.serve_action {d : DistrictId} (ht : s.target r = .action d) (hop : r.op = .read) :
    s.serve r = s.returnWord r.lanes 0 := by
  fun_cases State.serve <;> simp_all

theorem State.serve_action_write {d : DistrictId} {v : Word} (ht : s.target r = .action d) (hop : r.op = .write v) :
    s.serve r = State.action d (actionWord r.lanes v) s := by
  fun_cases State.serve <;> simp_all

/-- A write to a live or read-clear word is dropped. -/
theorem State.serve_dropped {v : Word} (ht : (∃ w, s.target r = .live w) ∨ ∃ d, s.target r = .flags d)
    (hop : r.op = .write v) : s.serve r = s := by
  rcases ht with ⟨w, ht⟩ | ⟨d, ht⟩ <;> fun_cases State.serve <;> simp_all

end

/-- What an action code does (R149). -/
theorem State.action_cases (s : State) (d : DistrictId) (w : Word) :
    (w = 0x5A01 → s.action d w = s.clearLockout d) ∧ (w = 0x5A02 → s.action d w = s.clearFlagsAt d)
      ∧ (w ≠ 0x5A01 → w ≠ 0x5A02 → s.action d w = s) := by
  refine ⟨?_, ?_, fun hlockout hflags => ?_⟩
  · rintro rfl
    rfl
  · rintro rfl
    rfl
  · exact (if_neg hlockout).trans (if_neg hflags)

/-! ### The live words read (R126, R127, R171 to R173) -/

section
variable {s : State} (hr : s.inReset = false) (ha : s.access = .none)
include hr ha

theorem exec_hostAccessBegin_own (r : Request) (ho : s.target r ≠ .owner) (hi : ∀ p, s.target r ≠ .intent p) :
    exec (.hostAccessBegin r) s = .next { s.serve r with access := .served r } := by
  rw [exec_hostAccessBegin r hr ha, State.placeAccess_of_own ho hi]

theorem exec_hostAccessBegin_live (w : LiveWord) (a : WordAddr) (l : Lanes) (hw : refAt s.windowBase a = .live w) :
    exec (.hostAccessBegin { addr := a, op := .read, lanes := l }) s = .next
      { s with
        access := .served { addr := a, op := .read, lanes := l }
        readData := onLanes l (s.liveView w) } := by
  rw [exec_hostAccessBegin _ hr ha]
  have hplaced := s.beginAccess_live w a l ha hw
  simp only [State.beginAccess, ha] at hplaced
  rw [hplaced]

theorem readsAs_live (w : LiveWord) {offset : Nat} (ho : offset = w.offset) : ReadsAs s offset (s.liveView w) := by
  subst ho
  rintro l r rfl
  refine exec_hostAccessBegin_live hr ha w _ l ?_
  rw [refAt_image _ _ w.offset_lt, wordAtOffset_offset]

end

/-- The half of a set that bit d stands in. -/
theorem half_eq (d : DistrictId) : d.val / 16 = (decide (16 ≤ d.val)).toNat := by
  have hd := d.isLt
  by_cases h : 16 ≤ d.val
  · simp only [h, decide_true, Bool.toNat_true]
    omega
  · simp only [h, decide_false, Bool.toNat_false]
    omega

/-- Settles O33: each of the part's own words is served at once, and a live word shows its fields at their bits. -/
theorem hostAccessServedWithoutFace : Obligations.HostAccessServedWithoutFace := by
  intro s a l hr ha
  have hown := exec_hostAccessBegin_own hr ha
  have hlive (w : LiveWord) {offset : Nat} (ho : offset = w.offset) := readsAs_live hr ha w ho
  have hproducer : s.liveView .producerIndex = BitVec.ofNat 16 (s.ring.producer % 512) :=
    congrArg (BitVec.ofNat 16) (Nat.mul_one _)
  refine ⟨fun w ht => exec_hostAccessBegin_live hr ha w a l ht, fun v ht => ?_, fun d ht => ?_, fun d v w ht hw => ?_,
    fun d ht => ?_, hlive .lastCommand rfl, ?_, hproducer ▸ hlive .producerIndex rfl, fun k => ?_, fun k => ?_, fun k => ?_,
    fun d => ?_, fun i => hlive (.queueView i) rfl, fun n i hfree => ?_, fun n hn => ?_, fun n d hn => ?_, fun d => ?_⟩
  · have hserve : s.serve { addr := a, op := .write v, lanes := l } = s := State.serve_dropped ht rfl
    rcases ht with ⟨w, ht⟩ | ⟨d, ht⟩ <;>
      rw [hown _ (by simp [State.target, ht]) (by simp [State.target, ht]), hserve]
  · have hserve : s.serve { addr := a, op := .read, lanes := l } = State.readFlags d l s := State.serve_flags ht rfl
    refine ⟨State.readFlags d l s, congrArg Host.Outcome.next (s.running_of_run _ hr), ?_⟩
    rw [hown _ (by simp [State.target, ht]) (by simp [State.target, ht]), hserve]
  · obtain ⟨hlockout, hflags, hother⟩ := s.action_cases d w
    have hserve : s.serve { addr := a, op := .write v, lanes := l } = State.action d w s :=
      hw ▸ State.serve_action_write ht rfl
    refine ⟨State.action d w s, fun he => ?_, fun he => ?_, hother, ?_⟩
    · rw [hlockout he]
      exact congrArg Host.Outcome.next (s.running_of_run _ hr)
    · rw [hflags he]
      exact congrArg Host.Outcome.next (s.running_of_run _ hr)
    · rw [hown _ (by simp [State.target, ht]) (by simp [State.target, ht]), hserve]
  · have hserve : s.serve { addr := a, op := .read, lanes := l } = s.returnWord l 0 := State.serve_action ht rfl
    rw [hown _ (by simp [State.target, ht]) (by simp [State.target, ht]), hserve]
    rfl
  case refine_5 =>
    obtain ⟨hmarks, hhold, hfault, hopen, hbusy, hmask⟩ := s.field_statusWord
    refine ⟨_, hlive .status rfl, ?_, ?_, ?_, hopen, fun e => ?_, hmask⟩
    · simp only [State.liveView, getLsbD_eq_field, hmarks, decide_ofMark]
      simp
    · simp only [State.liveView, getLsbD_eq_field, hhold, decide_ofMark]
    · simp only [State.liveView, getLsbD_eq_field, hfault, decide_ofMark]
    · simp only [State.liveView, getLsbD_eq_field, hbusy, decide_ofMark]
  · obtain ⟨hstate, hmisses, hrestarted, hmask⟩ := (s.node k).field_word
    refine ⟨_, hlive (.nodeState k) rfl, ?_, hmisses, ?_, hmask⟩
    · simp only [State.liveView, hstate]
      cases (s.node k).state <;> rfl
    · simp only [State.liveView, getLsbD_eq_field, hrestarted, decide_ofMark]
  · obtain ⟨hstate, hengaged, hstress, hmask⟩ := (s.feed k).field_word
    refine ⟨_, hlive (.feedState k) rfl, ?_, hengaged, hstress, hmask⟩
    simp only [State.liveView, hstate]
    cases (s.feed k).state <;> rfl
  · obtain ⟨hzero, hone⟩ := field_ofLanes ((s.feed k).historyByte 1) ((s.feed k).historyByte 0)
    obtain ⟨htwo, hthree⟩ := field_ofLanes ((s.feed k).historyByte 3) ((s.feed k).historyByte 2)
    refine ⟨_, _, hlive (.feedHistory k false) rfl, hlive (.feedHistory k true) rfl, fun i => ?_⟩
    have hbyte : field (if i.val < 2 then s.liveView (.feedHistory k false) else s.liveView (.feedHistory k true))
        (8 * (i.val % 2)) 8 = ((s.feed k).historyByte i.val).toNat := by
      match i with
      | 0 => exact hzero
      | 1 => exact hone
      | 2 => exact htwo
      | 3 => exact hthree
    rw [hbyte, Feed.toNat_historyByte]
    cases (s.feed k).history[i.val]? <;> rfl
  · have hbit (P : District → Bool) :
        (halfOf (decide (16 ≤ d.val)) (s.districtsWith P)).getLsbD (d.val % 16) = P (s.dist d) := by
      rw [getLsbD_halfOf, s.getLsbD_districtsWith]
    exact ⟨_, _, _, hlive (.withFlags (decide (16 ≤ d.val))) (by rw [half_eq]; rfl),
      hlive (.inLockout (decide (16 ≤ d.val))) (by rw [half_eq]; rfl),
      hlive (.inLive (decide (16 ≤ d.val))) (by rw [half_eq]; rfl), hbit _, hbit _, hbit _⟩
  · have hview : s.liveView (.incidentView n i) = 0 := if_pos hfree
    exact hview ▸ hlive (.incidentView n i) rfl
  · obtain ⟨hstate, hid, hmask⟩ := Slot.field_view_zero hn
    obtain ⟨hclass, hnone, horigin, hcount⟩ := Slot.field_view_one hn
    refine ⟨_, _, hlive (.incidentView n 0) rfl, hlive (.incidentView n 1) ?_, ?_, hid, hmask, ?_, ?_, horigin, hcount⟩
    · simp only [LiveWord.offset]
      omega
    · simp only [State.liveView, hstate]
      cases (s.slot n).state <;> rfl
    · simp only [State.liveView, hclass, Slot.classCode]
      cases (s.slot n).cls with
      | none => rfl
      | some c => cases c <;> rfl
    · simp only [State.liveView, getLsbD_eq_field, hnone, decide_ofMark]
  · obtain ⟨hmembers, hrestored, hlockouts⟩ := Slot.view_halves hn (decide (16 ≤ d.val))
    have hoffset (low : Nat) (i j : Fin 8) (hi : i.val = low + 1) (hj : j.val = low) :
        0x1C0 + 2 * low + 16 * n.val + 2 * (d.val / 16) =
          (LiveWord.incidentView n (cond (decide (16 ≤ d.val)) i j)).offset := by
      simp only [LiveWord.offset, half_eq]
      cases decide (16 ≤ d.val) <;> simp only [cond_true, cond_false, Bool.toNat_true, Bool.toNat_false] <;> omega
    refine ⟨_, _, _, hlive _ (hoffset 2 3 2 rfl rfl), hlive _ (hoffset 4 5 4 rfl rfl), hlive _ (hoffset 6 7 6 rfl rfl),
      ?_, ?_, ?_⟩
    · rw [State.liveView, hmembers, getLsbD_halfOf, getLsbD_members]
    · rw [State.liveView, hrestored, getLsbD_halfOf]
    · rw [State.liveView, hlockouts, getLsbD_halfOf]
  · obtain ⟨hstate, hpolarity, hmark, hinvalid, hunused, hattempts, hreload⟩ := (s.dist d).field_stateWord
    obtain ⟨hcurrent, hlevel, hmask⟩ := (s.dist d).field_levelWord
    obtain ⟨hcause, hrole, hslot, hincident⟩ := (s.dist d).field_causeWord
    refine ⟨_, _, _, hlive (.districtState d) rfl, hlive (.districtLevel d) rfl, hlive (.districtCause d) rfl, ?_, ?_,
      ?_, ?_, ?_, hattempts, hreload, hcurrent, hlevel, hmask, ?_, ?_, fun hi => ?_, fun i hi => ?_⟩
    · simp only [State.liveView, hstate]
      cases (s.dist d).state <;> rfl
    · simp only [State.liveView, getLsbD_eq_field, hpolarity]
      cases (s.dist d).polarity <;> rfl
    · simp only [State.liveView, getLsbD_eq_field, hmark, decide_ofMark]
    · simp only [State.liveView, getLsbD_eq_field, hinvalid, decide_ofMark]
    · simp only [State.liveView, getLsbD_eq_field, hunused]
      rfl
    · simp only [State.liveView, hcause]
      cases (s.dist d).lastCause with
      | none => rfl
      | some c => cases c <;> rfl
    · simp only [State.liveView, hrole]
      cases (s.dist d).role <;> rfl
    · simp only [State.liveView, hslot, hincident, District.slotCode, District.incidentCode, hi]
      exact ⟨trivial, trivial⟩
    · simp only [State.liveView, hslot, hincident, District.slotCode, District.incidentCode, hi]
      exact ⟨trivial, fun hn => by rw [hn], fun n hn => by rw [hn]⟩

end Sys2Proof.Machine
end

section
/-! SUPPORT. The freeze, the flags and the last reset cause (R145, R146, R149, R152). -/

namespace Sys2Proof.Machine

open Sys2Proof

/-! ### LOCK_FREEZE and CLEAR_FLAGS (R149, R152) -/

/-- Settles O10. -/
theorem lockFreezeSetsFlagAlone : Obligations.LockFreezeSetsFlagAlone := fun s hr =>
  congrArg Host.Outcome.next (s.running_of_run State.lockFreeze hr)

/-- Cleared flags leave the state, the queue and the engines, so the claim brings no notice and no scan. -/
theorem State.clearFlagsAt_of_passes (s : State) (d : DistrictId) (hp : s.passes d) :
    s.clearFlagsAt d = s.modDist d District.clearFlags := by
  rw [State.clearFlagsAt, s.claim_of_passes d _ hp]
  exact s.finish_of_same d _ (by rw [State.dist_modDist_same]; rfl) rfl rfl

/-- Settles O12. -/
theorem clearFlagsClearsSevenFlags : Obligations.ClearFlagsClearsSevenFlags := by
  intro s d hr hp
  have hx : exec (.clearFlags d) s = .next (s.clearFlagsAt d) := congrArg Host.Outcome.next (s.running_of_run _ hr)
  rw [hx, s.clearFlagsAt_of_passes d hp]
  rfl

/-! ### Reads that clear (R127, R145, R146, R173) -/

/-- Bits 0 to 6 of the flags word are the seven flags, and no other bit is set (R173). -/
theorem Flags.field_word (f : Flags) :
    field f.word 0 1 = ofMark f.tripped ∧ field f.word 1 1 = ofMark f.refused
      ∧ field f.word 2 1 = ofMark f.lockoutEntered ∧ field f.word 3 1 = ofMark f.rampStalled
      ∧ field f.word 4 1 = ofMark f.flipped ∧ field f.word 5 1 = ofMark f.restored
      ∧ field f.word 6 1 = ofMark f.checkError ∧ field f.word 7 9 = 0 := by
  have htripped := ofMark_le_one f.tripped
  have hrefused := ofMark_le_one f.refused
  have hlockout := ofMark_le_one f.lockoutEntered
  have hstalled := ofMark_le_one f.rampStalled
  have hflipped := ofMark_le_one f.flipped
  have hrestored := ofMark_le_one f.restored
  have herror := ofMark_le_one f.checkError
  refine ⟨?_, ?_, ?_, ?_, ?_, ?_, ?_, ?_⟩ <;> rw [Flags.word, field_ofNat_eq] <;> simp only [place] <;> omega

/-- Settles O29. -/
theorem flagsReadReturnsAndClearsFlags : Obligations.FlagsReadReturnsAndClearsFlags := by
  intro s d l hr
  obtain ⟨htripped, hrefused, hlockout, hstalled, hflipped, hrestored, herror, hunused⟩ := (s.dist d).flags.field_word
  refine ⟨(s.dist d).flags.word, congrArg Host.Outcome.next (s.running_of_run _ hr), ?_, ?_, ?_, ?_, ?_, ?_, ?_,
    and_eq_zero_of_runs [(7, 9)] (by decide) hunused⟩
  all_goals simp only [getLsbD_eq_field, htripped, hrefused, hlockout, hstalled, hflipped, hrestored, herror,
    decide_ofMark]

/-- A write to the last reset cause is dropped (R146). -/
theorem State.serve_resetCause_write {s : State} {r : Request} {v : Word} (ht : s.target r = .lastResetCause)
    (hop : r.op = .write v) : s.serve r = s := by
  fun_cases State.serve <;> simp_all

/-- Settles O30, by the two resets, the read and the write. -/
theorem lastResetCauseSetByResetsAndClearedByRead : Obligations.LastResetCauseSetByResetsAndClearedByRead := by
  refine ⟨fun s p => ⟨_, rfl, rfl⟩, fun s hr => ⟨_, congrArg Host.Outcome.next (s.running_of_run _ hr), rfl⟩,
    fun s l hr => ?_, fun s a v l hr ha ht => ?_⟩
  · have hx : exec (.lastResetCauseRead l) s = .next (s.readResetCause l) :=
      congrArg Host.Outcome.next (s.running_of_run _ hr)
    rw [hx, State.readResetCause]
    cases s.lastResetCause <;> rfl
  · have htarget : s.target { addr := a, op := .write v, lanes := l } = .lastResetCause := ht
    rw [exec_hostAccessBegin_own hr ha _ (by simp [htarget]) (by simp [htarget]),
      State.serve_resetCause_write htarget rfl]

end Sys2Proof.Machine
end

section
/-! SUPPORT. CLEAR_ALL_LOCKOUTS (R17, R152), and the control command word (R150). -/

namespace Sys2Proof.Machine

open Sys2Proof

/-! ### No check error, notice or scan locks a district out (R22, R47, R49, R70) -/

/-- No district is in LOCKOUT in t that was not in s. -/
def NoNewLockout (s t : State) : Prop := ∀ d, (t.dist d).state = .lockout → (s.dist d).state = .lockout

theorem NoNewLockout.refl (s : State) : NoNewLockout s s := fun _ => id

section
variable {r s : State} (h : NoNewLockout r s)
include h

/-- The contexts of the districts but d have the states they had, and d is not in LOCKOUT. -/
theorem NoNewLockout.of_dist (d : DistrictId) {t : State} (hd : (t.dist d).state ≠ .lockout)
    (ho : ∀ e, e ≠ d → (t.dist e).state = (s.dist e).state) : NoNewLockout r t := fun e he => by
  by_cases hed : e = d
  · exact absurd (hed ▸ he) hd
  · exact h e (ho e hed ▸ he)

theorem NoNewLockout.of_same {t : State} (hs : ∀ e, (t.dist e).state = (s.dist e).state) : NoNewLockout r t :=
  fun e he => h e (hs e ▸ he)

theorem NoNewLockout.enter (d : DistrictId) {st : DistrictState} (hst : st ≠ .lockout) :
    NoNewLockout r (s.enter d st) :=
  h.of_dist d (by rwa [State.dist_enter_same, District.enter_state])
    (fun e he => by rw [State.dist_enter_other _ _ _ _ he])

theorem NoNewLockout.modDist (d : DistrictId) {f : District → District}
    (hf : (f (s.dist d)).state = (s.dist d).state) : NoNewLockout r (s.modDist d f) :=
  h.of_same (fun e => s.state_modDist_of_keeps d e hf)

theorem NoNewLockout.checkError (d : DistrictId) : NoNewLockout r (s.checkError d) := by
  refine h.of_dist d ?_ (fun e he => by rw [(aside_checkError he.symm s).dist])
  obtain ⟨-, -, hstate⟩ := s.dist_checkError d
  rw [hstate]
  split <;> decide

theorem NoNewLockout.releaseSuspect (d : DistrictId) : NoNewLockout r (s.releaseSuspect d) := by
  unfold State.releaseSuspect
  split
  · exact h.checkError d
  · refine h.of_dist d ?_ (fun e he => by rw [s.dist_enterQueued_other d e true he])
    rw [s.dist_enterQueued_same, District.enter_state]
    decide

theorem NoNewLockout.closeSlot (n : SlotId) : NoNewLockout r (s.closeSlot n) :=
  h.of_same (fun e => (apart_closeSlot e s n).state)

theorem NoNewLockout.notify (before : State) (d : DistrictId) : NoNewLockout r (before.notify d s) :=
  State.notify_keeps (fun _ n ht => ht.closeSlot n) (fun _ e ht _ => ht.releaseSuspect e) before d s h

theorem NoNewLockout.beginRamp (i : EngineId) (d : DistrictId) : NoNewLockout r (s.beginRamp i d) := by
  have htaken : NoNewLockout r (s.takeEngine i d) :=
    (NoNewLockout.enter (s := State.modEngine { s with queue := s.queue.erase d } i _) h d
      (st := .ramping) (by decide)).of_same (fun _ => rfl)
  unfold State.beginRamp
  split
  · exact htaken
  · exact NoNewLockout.modDist (s := (s.takeEngine i d).modEngine i _) htaken d rfl

theorem NoNewLockout.completeRamp (i : EngineId) (d : DistrictId) : NoNewLockout r (s.completeRamp i d) := by
  have hproving : NoNewLockout r ((s.enter d .proving).countAttempt d) :=
    (h.enter d (by decide)).modDist d (by split <;> rfl)
  exact hproving.of_same (fun _ => rfl)

theorem NoNewLockout.grant (i : EngineId) (d : DistrictId) : NoNewLockout r (s.grant i d) := by
  have hbegun := (h.beginRamp i d).notify s d
  unfold State.grant
  dsimp only
  split
  · exact (h.checkError d).notify s d
  · split
    · exact (hbegun.completeRamp i d).notify _ d
    · exact hbegun

theorem NoNewLockout.finish (before : State) (d : DistrictId) : NoNewLockout r (before.finish d s) :=
  State.finish_keeps (fun _ n ht => ht.closeSlot n) (fun _ e ht _ => ht.releaseSuspect e)
    (fun _ i e ht _ _ _ => ht.grant i e) before d s h

end

/-! ### CLEAR_ALL_LOCKOUTS (R17, R152) -/

/-- A lockout clear takes d out of LOCKOUT, by its effect or by the check error in its place, and ends its claim. -/
theorem State.clearLockout_eq (s : State) (d : DistrictId) : ∃ u : State, s.clearLockout d = s.finish d u
    ∧ (u.dist d).state ≠ .lockout ∧ ∀ e, e ≠ d → u.dist e = s.dist e := by
  cases hf : s.checkFails d with
  | true =>
    obtain ⟨-, -, hstate⟩ := s.dist_checkError d
    exact ⟨s.checkError d, s.claim_of_fails d _ hf, by rw [hstate]; split <;> decide,
      fun e he => (aside_checkError he.symm s).dist⟩
  | false =>
    refine ⟨s.clearLockoutAt d, s.claim_of_passes d _ hf, ?_⟩
    by_cases hl : (s.dist d).state = .lockout
    · rw [s.clearLockoutAt_of_lockout d hl]
      exact ⟨by simp, s.dist_modDist_other d _⟩
    · have hclear : s.clearLockoutAt d = s := if_neg hl
      rw [hclear]
      exact ⟨hl, fun _ _ => rfl⟩

theorem NoNewLockout.clearLockout {r s : State} (h : NoNewLockout r s) (d : DistrictId) :
    NoNewLockout r (s.clearLockout d) := by
  obtain ⟨u, hu, hd, ho⟩ := s.clearLockout_eq d
  rw [hu]
  exact (h.of_dist d hd (fun e he => by rw [ho e he])).finish s d

theorem State.state_clearLockout (s : State) (d : DistrictId) :
    ((s.clearLockout d).dist d).state ≠ .lockout := by
  obtain ⟨u, hu, hd, -⟩ := s.clearLockout_eq d
  rw [hu]
  exact fun hl => hd ((NoNewLockout.refl u).finish s d d hl)

/-- Clears at a list that holds every district in LOCKOUT leave none in it. -/
theorem state_foldl_clearLockout (d : DistrictId) : ∀ (l : List DistrictId) (s : State),
    (∀ e, (s.dist e).state = .lockout → e ∈ l) →
      ((l.foldl (fun t e => State.clearLockout e t) s).dist d).state ≠ .lockout := by
  intro l
  induction l with
  | nil => exact fun s hs hd => List.not_mem_nil (hs d hd)
  | cons c l ih =>
    refine fun s hs => ih _ (fun e he => ?_)
    have hold := (NoNewLockout.refl s).clearLockout c e he
    rcases List.mem_cons.mp (hs e hold) with rfl | hmem
    · exact absurd he (s.state_clearLockout e)
    · exact hmem

/-- After CLEAR_ALL_LOCKOUTS no district is in LOCKOUT, whatever the order of the claims (log 5). -/
theorem State.state_clearAllLockouts (s : State) (d : DistrictId) :
    (s.clearAllLockouts.dist d).state ≠ .lockout := by
  have hlisted (e : DistrictId) (he : (s.dist e).state = .lockout) : e ∈ s.clearable := by
    simp [State.clearable, he]
  have hdist : s.clearAllLockouts.dist d = (s.inFreeOrder s.clearable State.clearLockout).dist d := rfl
  rw [hdist]
  unfold State.inFreeOrder
  split
  · exact state_foldl_clearLockout d _ s hlisted
  · exact state_foldl_clearLockout d _ _ (fun e he => (arrangeFrom_perm _ _ _).mem_iff.mpr (hlisted e he))

theorem calm_clearLockout (d : DistrictId) (s : State) : Calm s (s.clearLockout d) := by
  refine calm_claim s d _ ?_
  unfold State.clearLockoutAt
  split
  · exact (calm_enter s d _).trans (calm_modDist _ d _)
  · exact Calm.refl s

/-- A LOCKOUT context freed (R17). -/
def District.unlocked (x : District) : District :=
  { x with
    state := .off
    attempts := 0
    level := 0
    mark := false
    holdoffTimer := .none
    provingTimer := .none
    quietTimer := .none }

/-- Some of the districts of s in LOCKOUT are freed in t, and nothing else has changed but the counter of choices. -/
def Unlocking (s t : State) : Prop :=
  t = { s with districts := t.districts, choices := t.choices }
    ∧ ∀ d, t.dist d = s.dist d ∨ (s.dist d).state = .lockout ∧ t.dist d = (s.dist d).unlocked

/-- Where every context passes and no LOCKOUT district is in an incident, a clear frees its district alone. -/
theorem Unlocking.clearLockout {s t : State} (hp : ∀ d, s.passes d)
    (hn : ∀ d, (s.dist d).state = .lockout → (s.dist d).incidentSlot = .none) (h : Unlocking s t) (d : DistrictId) :
    Unlocking s (t.clearLockout d) := by
  obtain ⟨hsame, hdist⟩ := h
  have hpasses : t.passes d := by
    have hd : (t.dist d).invalid = (s.dist d).invalid ∧ (t.dist d).codeAgrees = (s.dist d).codeAgrees := by
      rcases hdist d with hd | ⟨-, hd⟩ <;> rw [hd] <;> exact ⟨rfl, rfl⟩
    have hpd : s.checkFails d = false := hp d
    simpa only [State.passes, State.checkFails, hd] using hpd
  rw [State.clearLockout, t.claim_of_passes d _ hpasses]
  by_cases hl : (t.dist d).state = .lockout
  · have hd : t.dist d = s.dist d := by
      rcases hdist d with hd | ⟨-, hd⟩
      · exact hd
      · rw [hd] at hl
        cases hl
    have hclear : t.clearLockoutAt d = t.modDist d District.unlocked := t.clearLockoutAt_of_lockout d hl
    have hfree : ((t.modDist d District.unlocked).dist d).incidentSlot = .none := by
      rw [State.dist_modDist_same, hd]
      exact hn d (hd ▸ hl)
    rw [hclear, t.finish_of_no_incident d _ hfree rfl rfl]
    refine ⟨?_, fun e => ?_⟩
    · rw [hsame]
      rfl
    · by_cases he : e = d
      · subst he
        exact .inr ⟨hd ▸ hl, by rw [State.dist_modDist_same, hd]⟩
      · rw [State.dist_modDist_other _ _ _ _ he]
        exact hdist e
  · have hclear : t.clearLockoutAt d = t := if_neg hl
    rw [hclear, t.finish_of_same d t rfl rfl rfl]
    exact ⟨hsame, hdist⟩

/-- Settles O9: no claim of the free order brings a LOCKOUT, and each ends one. -/
theorem clearAllLockoutsLeavesNoLockout : Obligations.ClearAllLockoutsLeavesNoLockout := by
  intro s hr
  have hcalm : Calm s (s.inFreeOrder s.clearable State.clearLockout) :=
    calm_inFreeOrder _ _ (fun d _ t => calm_clearLockout d t) s
  refine ⟨s.clearAllLockouts, congrArg Host.Outcome.next (s.running_of_run _ hr), s.state_clearAllLockouts, rfl,
    hcalm.control, hcalm.adjacency, hcalm.nodes, hcalm.lines, hcalm.mem, fun hp hn => ?_⟩
  obtain ⟨hsame, hdist⟩ : Unlocking s (s.inFreeOrder s.clearable State.clearLockout) :=
    State.inFreeOrder_keeps _ _ (fun t ⟨hsame, hdist⟩ => ⟨by rw [hsame], hdist⟩)
      (fun d _ t ht => ht.clearLockout hp hn d) s ⟨rfl, fun _ => .inl rfl⟩
  refine ⟨fun d hl => ?_, fun d hl => ?_, ?_⟩
  · rcases hdist d with hd | ⟨-, hd⟩
    · exact absurd ((congrArg District.state hd).trans hl) (s.state_clearAllLockouts d)
    · exact hd
  · rcases hdist d with hd | ⟨hd, -⟩
    · exact hd
    · exact absurd hd hl
  · rw [State.clearAllLockouts, hsame]
    rfl

/-! ### The control command word (R150) -/

section
variable {s : State} {r : Request}

theorem State.serve_command_read (ht : s.target r = .command) (hop : r.op = .read) :
    s.serve r = s.returnWord r.lanes 0 := by
  fun_cases State.serve <;> simp_all

theorem State.serve_command_write {v : Word} (ht : s.target r = .command) (hop : r.op = .write v) :
    s.serve r = State.command (actionWord r.lanes v) s := by
  fun_cases State.serve <;> simp_all

end

/-- A code that is none of the three, nor 0, is marked not taken. -/
theorem State.command_of_unknown (s : State) {w : Word} (hreset : w ≠ 0x4C01) (hclear : w ≠ 0x4C02)
    (hfreeze : w ≠ 0x4C03) (h0 : w ≠ 0) : s.command w = { s with lastCommand := w ||| 0x8000 } := by
  have hcode : s.command w = { s with lastCommand := notTaken w } :=
    (((if_neg hreset).trans (if_neg hclear)).trans (if_neg hfreeze)).trans (if_neg h0)
  rw [hcode, notTaken]

/-- No command is forwarded to memory, nor does one take the face (R126). -/
theorem State.command_stands (s : State) (w : Word) : (s.command w).mem = s.mem ∧ (s.command w).face = s.face := by
  have hcalm : Calm s (s.inFreeOrder s.clearable State.clearLockout) :=
    calm_inFreeOrder _ _ (fun d _ t => calm_clearLockout d t) s
  unfold State.command
  split
  · obtain ⟨contexts, marks, slots, ring, engines, feeds, hreset⟩ := s.layoutReset_eq
    rw [hreset]
    exact ⟨rfl, rfl⟩
  · split
    · exact ⟨hcalm.mem, hcalm.face⟩
    · split
      · exact ⟨rfl, rfl⟩
      · split <;> exact ⟨rfl, rfl⟩

/-- Settles O11, by the code written. -/
theorem controlCommandWordTakesCodes : Obligations.ControlCommandWordTakesCodes := by
  intro s a l v w hr ha ht hw
  have htarget (op : AccessOp) : s.target { addr := a, op := op, lanes := l } = .command := ht
  have hown (op : AccessOp) : exec (.hostAccessBegin { addr := a, op := op, lanes := l }) s =
      .next { s.serve { addr := a, op := op, lanes := l } with
        access := .served { addr := a, op := op, lanes := l } } :=
    exec_hostAccessBegin_own hr ha _ (by simp [htarget]) (by simp [htarget])
  have hrun (f : State → State) :
      Host.Outcome.next (s.running f) = (.next (f s) : Host.Outcome State Fault Refusal) :=
    congrArg Host.Outcome.next (s.running_of_run f hr)
  have hwrite : s.serve { addr := a, op := .write v, lanes := l } = s.command w :=
    (State.serve_command_write (htarget _) rfl).trans (by rw [hw]; rfl)
  have hread : s.serve { addr := a, op := .read, lanes := l } = s.returnWord l 0 :=
    State.serve_command_read (htarget _) rfl
  obtain ⟨hmem, hface⟩ := s.command_stands w
  refine ⟨⟨s.command w, by rw [hown, hwrite], hmem, hface, ?_, ?_, ?_, ?_, fun hreset hclear hfreeze h0 =>
    ⟨s.command_of_unknown hreset hclear hfreeze h0, hrun (State.command w)⟩⟩, ?_⟩
  · rintro rfl
    exact ⟨hrun State.layoutReset, rfl⟩
  · rintro rfl
    exact ⟨hrun State.clearAllLockouts, rfl⟩
  · rintro rfl
    exact ⟨hrun State.lockFreeze, rfl⟩
  · rintro rfl
    rfl
  · rw [hown, hread]
    rfl

end Sys2Proof.Machine
end

section
/-! SUPPORT. Fields set in a word: the field itself, the fields beside it, and the bits under a mask (R137, R173). -/

namespace Sys2Proof.Machine

open Sys2Proof

theorem testBit_field (w : Word) (lo len i : Nat) :
    (field w lo len).testBit i = (decide (i < len) && w.getLsbD (lo + i)) := by
  rw [field, ← Nat.shiftRight_eq_div_pow, Nat.testBit_mod_two_pow, Nat.testBit_shiftRight, BitVec.testBit_toNat]

section
variable (w : Word) {lo len : Nat} (v : Nat) (hfit : lo + len ≤ 16)
include hfit

/-- A word with a field set has the value's bits in the field and its own elsewhere. -/
theorem getLsbD_setField (i : Nat) : (setField w lo len v).getLsbD i =
    if lo ≤ i ∧ i < lo + len then (v % 2 ^ len).testBit (i - lo) else w.getLsbD i := by
  rcases Nat.lt_or_ge i 16 with hi | hi
  case inr => rw [BitVec.getLsbD_of_ge _ _ hi, if_neg (by omega), BitVec.getLsbD_of_ge _ _ hi]
  have hlow : w.toNat % 2 ^ lo < 2 ^ lo := Nat.mod_lt _ (Nat.two_pow_pos lo)
  have hfield : field w lo len < 2 ^ len := field_lt w lo len
  have hvalue : v % 2 ^ len < 2 ^ len := Nat.mod_lt _ (Nat.two_pow_pos len)
  have hword : w.toNat =
      2 ^ lo * (2 ^ len * (w.toNat / 2 ^ lo / 2 ^ len) + field w lo len) + w.toNat % 2 ^ lo := by
    rw [field, Nat.div_add_mod, Nat.div_add_mod]
  have hset : w.toNat - field w lo len * 2 ^ lo + v % 2 ^ len * 2 ^ lo =
      2 ^ lo * (2 ^ len * (w.toNat / 2 ^ lo / 2 ^ len) + v % 2 ^ len) + w.toNat % 2 ^ lo := by
    rw [Nat.mul_add] at hword ⊢
    rw [Nat.mul_comm (field w lo len), Nat.mul_comm (v % 2 ^ len)]
    omega
  have hbit : w.getLsbD i = w.toNat.testBit i := (BitVec.testBit_toNat w).symm
  rw [setField, hset, BitVec.getLsbD_ofNat, hbit]
  conv_rhs => rw [hword]
  rw [Nat.testBit_two_pow_mul_add _ hlow, Nat.testBit_two_pow_mul_add _ hlow, Nat.testBit_two_pow_mul_add _ hvalue,
    Nat.testBit_two_pow_mul_add _ hfield]
  rw [decide_eq_true hi, Bool.true_and]
  by_cases hbelow : i < lo
  · rw [if_pos hbelow, if_neg (by omega), if_pos hbelow]
  · by_cases hin : i - lo < len
    · rw [if_neg hbelow, if_pos hin, if_pos (by omega)]
    · rw [if_neg hbelow, if_neg hin, if_neg (by omega), if_neg hbelow, if_neg hin]

theorem field_setField_same : field (setField w lo len v) lo len = v % 2 ^ len := by
  refine Nat.eq_of_testBit_eq (fun i => ?_)
  rw [testBit_field, getLsbD_setField w v hfit, Nat.add_sub_cancel_left]
  by_cases hi : i < len
  · rw [if_pos (by omega), decide_eq_true hi, Bool.true_and]
  · rw [decide_eq_false hi, Bool.false_and, Nat.testBit_mod_two_pow, decide_eq_false hi, Bool.false_and]

/-- A field that does not meet the one set stands. -/
theorem field_setField_other {lo' len' : Nat} (h : lo' + len' ≤ lo ∨ lo + len ≤ lo') :
    field (setField w lo len v) lo' len' = field w lo' len' := by
  refine Nat.eq_of_testBit_eq (fun i => ?_)
  rw [testBit_field, testBit_field, getLsbD_setField w v hfit]
  by_cases hi : i < len'
  · rw [if_neg (by omega)]
  · rw [decide_eq_false hi, Bool.false_and, Bool.false_and]

/-- The bits under a mask that leaves out the field stand. -/
theorem setField_and_mask {mask : Word}
    (hmask : ∀ i : Fin 16, lo ≤ i.val → i.val < lo + len → mask.getLsbD i.val = false) :
    setField w lo len v &&& mask = w &&& mask := by
  apply BitVec.eq_of_getLsbD_eq
  intro i hi
  rw [BitVec.getLsbD_and, BitVec.getLsbD_and, getLsbD_setField w v hfit]
  split
  · next h => rw [hmask ⟨i, hi⟩ h.1 h.2, Bool.and_false, Bool.and_false]
  · rfl

end

/-! ### Clamped fields (R137) -/

section
variable (w : Word) {lo len low high : Nat} (hfit : lo + len ≤ 16)
include hfit

/-- A clamped field is the value of the range nearest to it. -/
theorem field_clampField_same (hhigh : high < 2 ^ len) (hlow : low ≤ high) :
    field (clampField w lo len low high) lo len = max low (min high (field w lo len)) := by
  rw [clampField, field_setField_same _ _ hfit, clamp_eq_max_min hlow, Nat.mod_eq_of_lt (by omega)]

/-- Where the range ends with the field's last value, the field is raised to the range's first one. -/
theorem field_clampField_raised (hlow : low < 2 ^ len) :
    field (clampField w lo len low (2 ^ len - 1)) lo len = max low (field w lo len) := by
  have hfield := field_lt w lo len
  rw [field_clampField_same w hfit (by omega) (by omega), Nat.min_eq_right (by omega)]

theorem field_clampField_other {lo' len' : Nat} (h : lo' + len' ≤ lo ∨ lo + len ≤ lo') :
    field (clampField w lo len low high) lo' len' = field w lo' len' :=
  field_setField_other w _ hfit h

theorem clampField_and_mask {mask : Word}
    (hmask : ∀ i : Fin 16, lo ≤ i.val → i.val < lo + len → mask.getLsbD i.val = false) :
    clampField w lo len low high &&& mask = w &&& mask :=
  setField_and_mask w _ hfit hmask

end

end Sys2Proof.Machine
end

section
/-! SUPPORT. Writes of the control settings, the fault mask and the ring words (R137, R141, R142, R161, R166). -/

namespace Sys2Proof.Machine

open Sys2Proof

/-! ### Control settings and the fault mask (R137, R141) -/

section
variable {s : State} (hf : s.faceFree)
include hf

theorem exec_controlSettingWrite_of_faceFree (r : Setting) (v : Word) (l : Lanes) :
    exec (.controlSettingWrite r v l) s = .next (s.writeSetting r v l) :=
  congrArg Host.Outcome.next
    (s.running_hostWrite (.control (settingReg r)) v l (State.writeSetting r v l) hf)

theorem exec_faultMaskWrite_of_faceFree (v : Word) (l : Lanes) :
    exec (.faultMaskWrite v l) s = .next (s.writeFaultMask v l) :=
  congrArg Host.Outcome.next (s.running_hostWrite (.control .faultMask) v l (State.writeFaultMask v l) hf)

theorem exec_ringSettingWrite_of_faceFree (r : RingReg) (v : Word) (l : Lanes) :
    exec (.ringSettingWrite r v l) s = .next (s.writeRingSetting r v l) :=
  congrArg Host.Outcome.next
    (s.running_hostWrite (.control (ringReg r)) v l (State.writeRingSetting r v l) hf)

theorem exec_consumerIndexWrite_of_faceFree (v : Word) (l : Lanes) :
    exec (.consumerIndexWrite v l) s = .next (s.writeConsumer v l) :=
  congrArg Host.Outcome.next (s.running_hostWrite (.control .consumerIndex) v l (State.writeConsumer v l) hf)

end

/-- Settles O23: the face is free, so the write is taken at once, and the word stored is the clamped one. -/
theorem controlSettingWriteClamps : Obligations.ControlSettingWriteClamps := by
  refine ⟨fun s r v l hf => ?_, fun s v l hf => exec_faultMaskWrite_of_faceFree hf v l⟩
  refine ⟨_, _, rfl, exec_controlSettingWrite_of_faceFree hf r v l, ?_, ?_, ?_⟩
  on_goal 3 => rintro (rfl | rfl | rfl)
  on_goal 2 => rintro rfl
  on_goal 1 => rintro rfl
  all_goals exact ⟨field_clampField_raised _ (by decide) (by decide), clampField_and_mask _ (by decide) (by decide)⟩

/-! ### The ring and the window (R142, R161) -/

/-- The ring base is a word address of the 19-bit face. -/
theorem Control.ringBase_lt (c : Control) : c.ringBase < 2 ^ 19 := by
  have hlow := c.ringBaseLow.isLt
  have hhigh : field c.ringBaseHigh 0 3 < 2 ^ 3 := field_lt _ _ _
  unfold Control.ringBase
  omega

/-- Two runs of addresses on the wrapping face meet exactly when the start of one lies in the other. -/
theorem ringMeetsWindow_iff (b : Fin 8) {base : Nat} (capacity : Nat) (hbase : base < 2 ^ 19) :
    ringMeetsWindow b base capacity = true ↔
      ∃ i : Nat, i < capacity * 8 ∧ inWindow b (BitVec.ofNat 19 (base + i)) = true := by
  have hb := b.isLt
  have hwindow : windowStart b + 2048 ≤ 2 ^ 19 := by
    simp only [windowStart]
    omega
  simp only [ringMeetsWindow, inWindow, BitVec.toNat_ofNat, Bool.or_eq_true, Bool.and_eq_true, decide_eq_true_eq]
  generalize windowStart b = start at hwindow
  constructor
  · rintro (h | ⟨hpos, h⟩)
    · exact ⟨(start + 2 ^ 19 - base) % 2 ^ 19, h, by omega, by omega⟩
    · exact ⟨0, by omega, by omega, by omega⟩
  · rintro ⟨i, hi, hlo, hhi⟩
    by_cases hstart : (base + i) % 2 ^ 19 - start ≤ i
    · exact .inl (by omega)
    · exact .inr ⟨by omega, by omega⟩

/-- The capacity is stored as the nearest value from 16 to 256 (R142). -/
theorem clampRing_capacity (w : Word) :
    clampRing .capacity w = BitVec.ofNat 16 (max 16 (min 256 w.toNat)) := by
  rw [clampRing, clamp_eq_max_min (by decide)]

/-- When a ring word is refused, in the spec's terms (R142). -/
theorem State.ringRefuses_iff (s : State) (r : RingReg) (w : Word) {c : Control}
    (hc : c = s.control.store (ringReg r) (clampRing r w)) : s.ringRefuses r w = true ↔
      s.ring.producer ≠ s.control.consumer ∨ s.ring.progress.isSome = true
        ∨ ∃ i : Nat, i < c.capacity * 8 ∧ inWindow s.windowBase (BitVec.ofNat 19 (c.ringBase + i)) = true := by
  rw [← ringMeetsWindow_iff _ _ c.ringBase_lt, hc]
  simp [State.ringRefuses, State.ringEmpty, or_assoc]

theorem Control.store_read (c : Control) (r : ControlReg) : c.store r (c.read r) = c := by cases r <;> rfl

/-- An old word of the control block written back: its mark and memory alone change (R136). -/
theorem State.storeIntent_control_read (s : State) (r : ControlReg) :
    s.storeIntent (.control r) (s.control.read r) =
      { s with
        corrections := s.corrections.filter (fun p => p != .control r)
        mem := Memory.write s.mem (addressOf s.windowBase (.control r)) .both (s.control.read r) } := by
  have h : s.storeIntent (.control r) (s.control.read r) =
      { s with
        control := s.control.store r (s.control.read r)
        corrections := s.corrections.filter (fun p => p != .control r)
        mem := Memory.write s.mem (addressOf s.windowBase (.control r)) .both (s.control.read r) } := rfl
  rw [h, s.control.store_read]

/-- Settles O25, by whether the write is refused. -/
theorem ringSettingWriteGuarded : Obligations.RingSettingWriteGuarded := by
  rintro s r v l m new c hf rfl hnew hc
  have hclamped : new = clampRing r (mergeLanes l v (s.control.read (ringReg r))) := by
    rw [hnew]
    cases r with
    | capacity => exact (clampRing_capacity _).symm
    | baseLow | baseHigh => rfl
  rw [hclamped] at hc ⊢
  have hrefuses := s.ringRefuses_iff r _ hc
  rw [exec_ringSettingWrite_of_faceFree hf, State.writeRingSetting]
  refine ⟨fun h => ?_, fun hempty hidle hclear => ?_⟩
  · rw [if_pos (hrefuses.mpr h), s.storeIntent_control_read]
  · have hfree : ¬s.ringRefuses r (mergeLanes l v (s.control.read (ringReg r))) = true := by
      rw [hrefuses]
      rintro (h | h | ⟨i, hi, h⟩)
      · exact h hempty
      · rw [hidle] at h
        cases h
      · rw [hclear i hi] at h
        cases h
    rw [if_neg hfree, hc]
    refine ⟨_, rfl, rfl, rfl, rfl, fun p => ?_, rfl, rfl, rfl, rfl, rfl, rfl, rfl⟩
    exact (mem_insertPosition _ p _).trans (or_congr_right (State.mem_unmark _ _ p))

/-! ### The consumer index (R142, R166) -/

/-- A distance on the ring from one index onward to another. -/
theorem ringDistance_eq {capacity a b : Nat} (ha : a < capacity) (hb : b < capacity) :
    (a + capacity - b) % capacity = if b ≤ a then a - b else a + capacity - b := by
  split
  · rw [show a + capacity - b = a - b + capacity by omega, Nat.add_mod_right, Nat.mod_eq_of_lt (by omega)]
  · rw [Nat.mod_eq_of_lt (by omega)]

/-- The position a distance onward from an index of the ring. -/
theorem ringPosition_eq {capacity a i : Nat} (ha : a < capacity) (hi : i < capacity) :
    (a + i) % capacity = if a + i < capacity then a + i else a + i - capacity := by
  split
  · rw [Nat.mod_eq_of_lt (by omega)]
  · rw [Nat.mod_eq_sub_mod (by omega), Nat.mod_eq_of_lt (by omega)]

/-- An index passes the test of R142 exactly if it is a step of the way from the consumer to the producer. -/
theorem State.consumable_iff (s : State) (w : Word) (hc : s.control.consumer < s.control.capacity) :
    s.consumable w = true ↔
      ∃ i : Nat, i ≤ (s.ring.producer + s.control.capacity - s.control.consumer) % s.control.capacity
        ∧ w.toNat = (s.control.consumer + i) % s.control.capacity := by
  have hdistance := Nat.mod_lt (s.ring.producer + s.control.capacity - s.control.consumer)
    (Nat.zero_lt_of_lt hc)
  simp only [State.consumable, Bool.and_eq_true, decide_eq_true_eq]
  generalize s.control.capacity = capacity at *
  generalize s.control.consumer = consumer at *
  generalize (s.ring.producer + capacity - consumer) % capacity = distance at *
  constructor
  · rintro ⟨hw, hle⟩
    refine ⟨_, hle, ?_⟩
    rw [ringPosition_eq hc (Nat.mod_lt _ (Nat.zero_lt_of_lt hc)), ringDistance_eq hw hc]
    split <;> split <;> omega
  · rintro ⟨i, hi, hw⟩
    have hlt : w.toNat < capacity := hw ▸ Nat.mod_lt _ (Nat.zero_lt_of_lt hc)
    refine ⟨hlt, ?_⟩
    rw [ringPosition_eq hc (by omega)] at hw
    rw [ringDistance_eq hlt hc]
    split at hw <;> split <;> omega

/-- Settles O26: the word stored is the merged value or the old one, by the test of R142. -/
theorem consumerIndexWriteGuarded : Obligations.ConsumerIndexWriteGuarded := by
  rintro s v l m stored hf hc - rfl htaken hkept
  rw [← s.consumable_iff _ hc] at htaken hkept
  rw [exec_consumerIndexWrite_of_faceFree hf, State.writeConsumer]
  have hstored : (if s.consumable (mergeLanes l v s.control.consumerIndex) then
      mergeLanes l v s.control.consumerIndex else s.control.consumerIndex) = stored := by
    split
    · next h => exact (htaken h).symm
    · next h => exact (hkept h).symm
  dsimp only
  rw [hstored]
  rfl

end Sys2Proof.Machine
end

section
/-! SUPPORT. Writes of the lock set words: the freeze, and the removals it keeps back (R143, R153, R156). -/

namespace Sys2Proof.Machine

open Sys2Proof

theorem exec_lockSetWrite_of_faceFree {s : State} (hf : s.faceFree) (h : LockHalf) (v : Word) (l : Lanes) :
    exec (.lockSetWrite h v l) s = .next (s.writeLock h v l) :=
  congrArg Host.Outcome.next (s.running_hostWrite (.control (lockReg h)) v l (State.writeLock h v l) hf)

/-- Whether district d stands in a half of the lock set (R143). -/
def inHalf (h : LockHalf) (d : DistrictId) : Bool :=
  match h with
  | .low => decide (d.val < 16)
  | .high => decide (16 ≤ d.val)

theorem contains_districtsOf (h : LockHalf) (w : Word) (d : DistrictId) :
    (districtsOf h w).contains d = (inHalf h d && w.getLsbD (d.val % 16)) := by
  have hd := d.isLt
  have hfilter (P : DistrictId → Bool) : ((indices 32).filter P).contains d = P d := by
    rw [Bool.eq_iff_iff, List.contains_iff_mem, List.mem_filter]
    exact and_iff_right (List.mem_finRange d)
  rw [districtsOf, hfilter]
  cases h with
  | low =>
    by_cases hlow : d.val < 16
    · simp [inHalf, hlow, Nat.mod_eq_of_lt hlow]
    · simp [inHalf, hlow]
  | high =>
    by_cases hhigh : 16 ≤ d.val
    · have hbit : d.val % 16 = d.val - 16 := by omega
      simp [inHalf, hhigh, hbit]
    · simp [inHalf, hhigh]

/-- The removals kept back: none without the freeze, and with it the old members that the write leaves out. -/
theorem contains_keptBack (s : State) (h : LockHalf) (m : Word) (d : DistrictId) :
    (districtsOf h (s.filterLock h m &&& ~~~m)).contains d =
      (s.freeze && (districtsOf h (s.control.read (lockReg h))).contains d && !(districtsOf h m).contains d) := by
  have hbit : d.val % 16 < 16 := Nat.mod_lt _ (by decide)
  simp only [contains_districtsOf, State.filterLock, BitVec.getLsbD_and, BitVec.getLsbD_not, hbit, decide_true,
    Bool.true_and]
  cases s.freeze with
  | false => simp
  | true =>
    rw [if_pos rfl, BitVec.getLsbD_or]
    cases inHalf h d <;> cases m.getLsbD (d.val % 16) <;> simp

/-- REFUSED latched in the districts of a list, and no other change (R8). -/
theorem latchRefusedAll_eq (l : List DistrictId) : ∀ s : State,
    s.latchRefusedAll l = { s with districts := (s.latchRefusedAll l).districts }
      ∧ ∀ d, (s.latchRefusedAll l).dist d =
        { s.dist d with flags := { (s.dist d).flags with
          refused := (s.dist d).flags.refused || l.contains d } } := by
  induction l with
  | nil => exact fun s => ⟨rfl, fun d => by simp [State.latchRefusedAll]⟩
  | cons e l ih =>
    intro s
    obtain ⟨hsame, hdist⟩ := ih (s.modDist e District.latchRefused)
    have hcons : s.latchRefusedAll (e :: l) = (s.modDist e District.latchRefused).latchRefusedAll l := rfl
    rw [hcons]
    refine ⟨by rw [hsame]; rfl, fun d => ?_⟩
    rw [hdist, State.dist_modDist]
    by_cases hd : d = e
    · subst hd
      simp [District.latchRefused]
    · simp [hd]

/-- Settles O27: the face is free, so the word is stored, the removals kept back are refused, and the claims follow. -/
theorem lockSetWriteFiltersByFreeze : Obligations.LockSetWriteFiltersByFreeze := by
  intro s h v l hf
  obtain ⟨hsame, hdist⟩ := latchRefusedAll_eq
    (districtsOf h (s.filterLock h (mergeLanes l v (s.control.read (lockReg h))) &&&
      ~~~mergeLanes l v (s.control.read (lockReg h))))
    (s.storeIntent (.control (lockReg h)) (s.filterLock h (mergeLanes l v (s.control.read (lockReg h)))))
  refine ⟨_, _, _, rfl, rfl, exec_lockSetWrite_of_faceFree hf h v l, ?_⟩
  rw [hsame]
  refine ⟨rfl, rfl, fun p => State.mem_unmark _ _ p, fun d => ?_, rfl⟩
  rw [← contains_keptBack]
  exact hdist d

end Sys2Proof.Machine
end

section
/-! SUPPORT. What a host write to a district word moves beside its word (R3, R11 to R16, R23). -/

namespace Sys2Proof.Machine

open Sys2Proof

/-! ### Moves of one district -/

/-- From s to t a host write has moved d: its words, flags, polarity and count stand, and nothing else has changed
but the queue, the engines, the feeds and the slots. -/
structure MovedByHost (s t : State) (d : DistrictId) : Prop where
  state : t = { s with
    districts := t.districts, queue := t.queue, engines := t.engines, feeds := t.feeds, slots := t.slots }
  words : (t.dist d).words = (s.dist d).words
  flags : (t.dist d).flags = (s.dist d).flags
  polarity : (t.dist d).polarity = (s.dist d).polarity
  attempts : (t.dist d).attempts = (s.dist d).attempts
  others : ∀ e, e ≠ d → t.dist e = s.dist e

theorem MovedByHost.refl (s : State) (d : DistrictId) : MovedByHost s s d := ⟨rfl, rfl, rfl, rfl, rfl, fun _ _ => rfl⟩

section
variable {s t : State} {d : DistrictId} (h : MovedByHost s t d)
include h

/-- The queue, the engines, the feeds and the slots changed, and no context. -/
theorem MovedByHost.of_same {u : State} (hu : u = { t with
    queue := u.queue, engines := u.engines, feeds := u.feeds, slots := u.slots }) : MovedByHost s u d := by
  have hdist (e : DistrictId) : u.dist e = t.dist e := by rw [hu]; rfl
  refine ⟨by rw [hu, h.state], ?_, ?_, ?_, ?_, fun e he => (hdist e).trans (h.others e he)⟩ <;> rw [hdist]
  · exact h.words
  · exact h.flags
  · exact h.polarity
  · exact h.attempts

theorem MovedByHost.modDist {f : District → District} (hw : (f (t.dist d)).words = (t.dist d).words)
    (hf : (f (t.dist d)).flags = (t.dist d).flags) (hp : (f (t.dist d)).polarity = (t.dist d).polarity)
    (ha : (f (t.dist d)).attempts = (t.dist d).attempts) : MovedByHost s (t.modDist d f) d := by
  refine ⟨by rw [h.state]; rfl, ?_, ?_, ?_, ?_, fun e he => (t.dist_modDist_other d f e he).trans (h.others e he)⟩ <;>
    rw [State.dist_modDist_same]
  · exact hw.trans h.words
  · exact hf.trans h.flags
  · exact hp.trans h.polarity
  · exact ha.trans h.attempts

theorem MovedByHost.enter (st : DistrictState) : MovedByHost s (t.enter d st) d := h.modDist rfl rfl rfl rfl

theorem MovedByHost.enterQueued (b : Bool) : MovedByHost s (t.enterQueued d b) d :=
  MovedByHost.of_same ((h.modDist (f := fun x => { x with mark := b }) rfl rfl rfl rfl).enter .queued) rfl

theorem MovedByHost.depart : MovedByHost s (t.depart d) d := h.of_same (by rw [t.depart_eq])

theorem MovedByHost.setWithdrawn (b : Bool) : MovedByHost s (t.setWithdrawn d b) d :=
  h.of_same (by rw [t.setWithdrawn_eq])

theorem MovedByHost.start : MovedByHost s (t.start d) d := by
  unfold State.start
  split
  · exact h.enterQueued false
  · exact h.enter .unreachable

/-- The move of an intent (R11 to R16). -/
theorem MovedByHost.intentMove (i : Intent) : MovedByHost s (t.intentMove d i) d := by
  unfold State.intentMove
  split
  · split
    · exact h.start
    · split
      · exact h.start
      · exact h
    · exact h.setWithdrawn false
    all_goals exact h
  · split
    -- the ninth row is TRIPPED, withdrawn; the eight before it stop
    case h_9 => exact h.setWithdrawn true
    case h_1 | h_2 | h_3 | h_4 | h_5 | h_6 | h_7 | h_8 => exact h.depart.enter .off
    all_goals exact h

theorem MovedByHost.reloadWord (w : Fin 5) : MovedByHost s (t.reloadWord d w) d := by
  unfold State.reloadWord
  dsimp only
  split
  · split
    · split
      · exact (h.modDist rfl rfl rfl rfl).enter .off
      · exact h.modDist rfl rfl rfl rfl
    · exact h.modDist rfl rfl rfl rfl
  · exact h

end

/-! ### A new mapping (R3) -/

/-- From s to t a host write has moved d, and its intent may have been set to OFF with word 0 marked (R3). -/
structure Remapped (s t : State) (d : DistrictId) : Prop where
  state : t = { s with districts := t.districts, queue := t.queue, corrections := t.corrections }
  marks : ∀ p, p ≠ .district d 0 → (p ∈ t.corrections ↔ p ∈ s.corrections)
  words : ∀ i : Fin 5, i ≠ 0 → (t.dist d).words[i] = (s.dist d).words[i]
  flags : (t.dist d).flags = (s.dist d).flags
  others : ∀ e, e ≠ d → t.dist e = s.dist e

theorem Remapped.refl (s : State) (d : DistrictId) : Remapped s s d :=
  ⟨rfl, fun _ _ => .rfl, fun _ _ => rfl, rfl, fun _ _ => rfl⟩

section
variable {s t : State} {d : DistrictId} (h : Remapped s t d)
include h

theorem Remapped.modDist {f : District → District}
    (hw : ∀ i : Fin 5, i ≠ 0 → (f (t.dist d)).words[i] = (t.dist d).words[i])
    (hf : (f (t.dist d)).flags = (t.dist d).flags) : Remapped s (t.modDist d f) d := by
  refine ⟨by rw [h.state]; rfl, h.marks, fun i hi => ?_, ?_,
    fun e he => (t.dist_modDist_other d f e he).trans (h.others e he)⟩ <;> rw [State.dist_modDist_same]
  · exact (hw i hi).trans (h.words i hi)
  · exact hf.trans h.flags

theorem Remapped.enter (st : DistrictState) : Remapped s (t.enter d st) d := h.modDist (fun _ _ => rfl) rfl

theorem Remapped.enterQueued (b : Bool) : Remapped s (t.enterQueued d b) d := by
  have hentered := (h.modDist (f := fun x => { x with mark := b }) (fun _ _ => rfl) rfl).enter .queued
  exact ⟨by rw [h.state]; rfl, hentered.marks, hentered.words, hentered.flags, hentered.others⟩

theorem Remapped.setIntentOff : Remapped s (t.setIntentOff d) d :=
  h.modDist (fun i hi => get_put_other (t.dist d).words 0 i _ hi) rfl

theorem Remapped.mark : Remapped s (t.mark (.district d 0)) d := by
  have hmarked : t.mark (.district d 0) =
      { t with corrections := (t.mark (.district d 0)).corrections } := by
    unfold State.mark
    split <;> rfl
  refine ⟨by rw [hmarked, h.state], fun p hp => ?_, fun i hi => ?_, ?_, fun e he => ?_⟩
  · rw [State.mem_corrections_mark, h.marks p hp, or_iff_left (fun ⟨hpd, _⟩ => hp hpd)]
  all_goals rw [State.dist_mark]
  · exact h.words i hi
  · exact h.flags
  · exact h.others e he

theorem Remapped.changeMapping : Remapped s (t.changeMapping d) d := by
  have hread := h.modDist (f := fun x => { x with current := 0 }) (fun _ _ => rfl) rfl
  unfold State.changeMapping
  rcases (t.modDist d (fun x => { x with current := 0 })).judgeMapping_cases d with hj | hj | hj | hj <;> rw [hj]
  · exact hread
  · exact hread.enterQueued false
  · exact hread.enter .off
  · exact (hread.enter .off).setIntentOff.mark

theorem Remapped.reloadWord (w : Fin 5) : Remapped s (t.reloadWord d w) d := by
  unfold State.reloadWord
  dsimp only
  split
  · split
    · split
      · exact (h.modDist (fun _ _ => rfl) rfl).enter .off
      · exact h.modDist (fun _ _ => rfl) rfl
    · exact h.modDist (fun _ _ => rfl) rfl
  · exact h

end

/-! ### A write that meets a check error (R22, R23) -/

section
variable {s : State} {d : DistrictId} {w : Fin 5} {v : Word} {l : Lanes} {c : Instr}

/-- A write of one of words 1 to 4 that passes its check stores the filtered word and then moves d, if at all. -/
theorem exec_districtWordWrite_remapped {i : Fin 4} {m : Word} (hf : s.faceFree) (hp : s.passes d) (hw : w = i.succ)
    (hm : m = mergeLanes l v (s.dist d).words[w]) : ∃ u : State,
      exec (.districtWordWrite d i v l) s = .next (s.finish d u)
        ∧ Remapped (s.storeFiltered d w (s.filterWord d w m) (s.wordRefused d w m)) u d := by
  refine ⟨_, exec_districtWordWrite_of_passes hf hp hw hm, Remapped.reloadWord ?_ w⟩
  split
  · exact (Remapped.refl _ d).changeMapping
  · exact Remapped.refl _ d

/-- A district write that passes its check ends a claim at d, and loses no CHECK_ERROR. -/
theorem exec_districtWrite_checkError (hf : s.faceFree) (hp : s.passes d)
    (hc : w = 0 ∧ c = .hostIntentWrite d v l ∨ ∃ i : Fin 4, w = i.succ ∧ c = .districtWordWrite d i v l) :
    ∃ u : State, exec c s = .next (s.finish d u)
      ∧ (u.dist d).flags.checkError = (s.dist d).flags.checkError := by
  rcases hc with ⟨rfl, rfl⟩ | ⟨i, hw, rfl⟩
  · refine ⟨_, exec_hostIntentWrite_of_passes hf hp rfl, ?_⟩
    rw [(((MovedByHost.refl _ d).intentMove _).reloadWord 0).flags, State.dist_storeFiltered_same]
    rfl
  · obtain ⟨u, hu, hmoved⟩ := exec_districtWordWrite_remapped (v := v) (l := l) hf hp hw rfl
    refine ⟨u, hu, ?_⟩
    rw [hmoved.flags, State.dist_storeFiltered_same]
    rfl

/-- A write whose reading raises a check error is the same write taken after the error (R22). -/
theorem exec_districtWrite_of_fails (hf : s.faceFree) (hp : ¬s.passes d)
    (hc : w = 0 ∧ c = .hostIntentWrite d v l ∨ ∃ i : Fin 4, w = i.succ ∧ c = .districtWordWrite d i v l) :
    exec c s = exec c (s.raiseCheck d) := by
  have hcalm := calm_raiseCheck s d
  have hafter : (s.raiseCheck d).faceFree := ⟨hcalm.inReset.trans hf.1, hcalm.face.trans hf.2⟩
  have hfails : s.readForWrite d = s.raiseCheck d := if_pos (eq_true_of_ne_false hp)
  have hpasses : (s.raiseCheck d).readForWrite d = s.raiseCheck d :=
    (s.raiseCheck d).readForWrite_of_passes d (State.checkFails_of_invalid _ d (s.invalid_raiseCheck d))
  rcases hc with ⟨rfl, rfl⟩ | ⟨i, hw, rfl⟩
  · have hx (t : State) (ht : t.faceFree) : exec (.hostIntentWrite d v l) t = .next (t.writeHostIntent d v l) :=
      congrArg Host.Outcome.next (t.running_hostWrite (.district d 0) v l (State.writeHostIntent d v l) ht)
    rw [hx _ hf, hx _ hafter, State.writeHostIntent, State.writeHostIntent, hfails, hpasses]
  · have hx (t : State) (ht : t.faceFree) :
        exec (.districtWordWrite d i v l) t = .next (t.writeDistrictWord d i.succ v l) :=
      congrArg Host.Outcome.next
        (t.running_hostWrite (.district d i.succ) v l (State.writeDistrictWord d i.succ v l) ht)
    rw [hx _ hf, hx _ hafter, State.writeDistrictWord, State.writeDistrictWord, hfails, hpasses]

/-- With the queue holding the QUEUED districts, a check error leaves d out of it. -/
theorem not_mem_queue_checkError (hq : QueueAgrees s) : d ∉ (s.checkError d).queue := by
  obtain ⟨hnodup, hqueued⟩ := hq
  obtain ⟨-, hlocked, helse⟩ := checkErrorTaken_checkError s d
  by_cases hl : (s.dist d).state = .locked
  · rw [hlocked hl, hqueued, hl]
    decide
  · rw [(helse hl).2]
    exact hnodup.not_mem_erase

/-- The check error empties the reload set (R22). -/
theorem State.reload_checkError (s : State) (d : DistrictId) : ((s.checkError d).dist d).reload = 0 := by
  simp [State.checkError, State.unmarkDistrict, State.dist, State.modDist, District.latchCheckError]

/-- One word does not complete the reload (R23). -/
theorem reload_incomplete : ∀ w : Fin 5, BitVec.twoPow 5 w.val ≠ 0b11111 := by decide

/-- The context of d after its check error, its notice and its scan, which do not move d. -/
theorem State.raiseCheck_spec (hq : QueueAgrees s) : d ∉ (s.raiseCheck d).queue
    ∧ ((s.raiseCheck d).dist d).reload = 0
    ∧ ((s.raiseCheck d).dist d).state = if (s.dist d).state = .locked then .locked else .checkHold := by
  obtain ⟨-, -, hstate⟩ := s.dist_checkError d
  have hout := not_mem_queue_checkError (d := d) hq
  have hapart : Apart d (s.checkError d) (s.raiseCheck d) :=
    apart_finish s d ⟨by rw [hstate]; split <;> decide, .inl hout⟩
  refine ⟨by rwa [hapart.queue], ?_, s.state_raiseCheck hq.1⟩
  rw [hapart.dist]
  exact s.reload_checkError d

/-- A write to a district whose context fails its check: the error is taken, and the word starts the reload. -/
theorem takenAfterCheckError (hf : s.faceFree) (hp : ¬s.passes d)
    (hc : w = 0 ∧ c = .hostIntentWrite d v l ∨ ∃ i : Fin 4, w = i.succ ∧ c = .districtWordWrite d i v l) :
    TakenAfterCheckError s d w c := by
  have hcalm := calm_raiseCheck s d
  have hafter : (s.raiseCheck d).faceFree := ⟨hcalm.inReset.trans hf.1, hcalm.face.trans hf.2⟩
  have hinvalid := s.invalid_raiseCheck d
  have hfails := exec_districtWrite_of_fails hf hp hc
  obtain ⟨u, hu, hflag⟩ := exec_districtWrite_checkError hafter (State.checkFails_of_invalid _ d hinvalid) hc
  refine ⟨s.checkError d, _, checkErrorTaken_checkError s d, hfails, hfails.trans hu, ?_, fun hq => ?_⟩
  · have hraised := (((ContextsKept.refl (s.checkError d)).finish s d) d).checkError (s.dist_checkError d).2.1
    exact ((ContextsKept.refl u).finish (s.raiseCheck d) d d).checkError (hflag.trans hraised)
  · obtain ⟨hout, hreload, hstate⟩ := State.raiseCheck_spec (d := d) hq
    have hresting : ((s.raiseCheck d).dist d).state = .checkHold ∨ ((s.raiseCheck d).dist d).state = .locked := by
      rw [hstate]
      split
      · exact .inr rfl
      · exact .inl rfl
    obtain ⟨t, ht, htinvalid, htreload, htstate, htoff, htqueue⟩ := exec_write_of_invalid hafter hinvalid hresting hc
    obtain ⟨hpartial, -, hwords, hqueue⟩ := t.reloadWord_spec d w htinvalid (by rw [htstate]; exact hresting)
    have hfirst : (0 : BitVec 5) ||| BitVec.twoPow 5 w.val = BitVec.twoPow 5 w.val := BitVec.zero_or
    rw [htreload, hreload, hfirst, htstate, hstate] at hpartial
    obtain ⟨hinvalid', hreload', hstate'⟩ := hpartial (reload_incomplete w)
    have hkept : Apart d (t.reloadWord d w) ((s.raiseCheck d).finish d (t.reloadWord d w)) :=
      apart_finish _ d ⟨by rw [hstate']; split <;> decide, .inl (by rwa [hqueue, htqueue])⟩
    rw [Host.Outcome.next.inj (hu.symm.trans ht), hkept.dist]
    refine ⟨hinvalid', hreload', hstate', fun hw => ?_⟩
    exact (congrArg (fun x : Vector Word 5 => intentOf x[(0 : Fin 5)]) hwords).trans (htoff hw)

end

end Sys2Proof.Machine
end

section
/-! PROOF. O13, O17 and O18: host writes of the words of a district (R22, R126, R132, R136 to R140). -/

namespace Sys2Proof.Machine

open Sys2Proof

/-! ### Word 0 (R138) -/

theorem field_intent_eq_iff (w code : Word) : field w 0 2 = code.toNat ↔ w &&& 3 = code := by
  rw [field_intent, BitVec.toNat_eq]

/-- ON and ON_MANUAL are the codes 1 and 2. -/
theorem energising_intentOf_iff (w : Word) : (intentOf w).energising = true ↔ w &&& 3 = 1 ∨ w &&& 3 = 2 := by
  have hone : w &&& 3 = 1 ↔ field w 0 2 = 1 := (field_intent_eq_iff w 1).symm
  have htwo : w &&& 3 = 2 ↔ field w 0 2 = 2 := (field_intent_eq_iff w 2).symm
  rw [hone, htwo, intentOf]
  split
  · next h => exact iff_of_true rfl (.inl h)
  · next h => exact iff_of_true rfl (.inr h)
  · next hnone hntwo => exact iff_of_false (by decide) (not_or.mpr ⟨hnone, hntwo⟩)

/-- A mapped context names a node in its four low bits (R1). -/
theorem District.nodeField_eq_zero_iff (x : District) : x.nodeField = 0 ↔ x.words[(1 : Fin 5)] &&& 0xF = 0 := by
  have h : x.nodeField = (x.words[(1 : Fin 5)] &&& 0xF).toNat := by
    rw [BitVec.toNat_and]
    simpa [District.nodeField, field] using (Nat.and_two_pow_sub_one_eq_mod x.words[1].toNat 4).symm
  rw [h]
  exact BitVec.toNat_eq (y := 0) |>.symm

/-- The filter of word 0 in the spec's terms (R138). -/
theorem District.filterIntent_eq (x : District) (w : Word) : x.filterIntent w =
    if w &&& 3 = 3 then w &&& 0xFFFC
    else if (w &&& 3 = 1 ∨ w &&& 3 = 2) ∧ (x.state = .lockout ∨ x.state = .locked ∨ x.state = .checkHold
        ∨ x.invalid = true ∨ x.words[(1 : Fin 5)] &&& 0xF = 0) then w &&& 0xFFFC
    else w := by
  have hrefuses : x.refusesOn = true ↔ x.state = .lockout ∨ x.state = .locked ∨ x.state = .checkHold
      ∨ x.invalid = true ∨ x.words[(1 : Fin 5)] &&& 0xF = 0 := by
    rw [← x.nodeField_eq_zero_iff]
    simp [District.refusesOn, or_assoc]
  have hundefined : field w 0 2 = 3 ↔ w &&& 3 = 3 := field_intent_eq_iff w 3
  simp only [District.filterIntent, hundefined, Bool.and_eq_true, energising_intentOf_iff, hrefuses]

/-- The filter keeps the word, or clears its intent. -/
theorem District.filterIntent_cases (x : District) (w : Word) :
    x.filterIntent w = w ∨ x.filterIntent w = w &&& 0xFFFC := by
  rw [x.filterIntent_eq]
  split
  · exact .inr rfl
  · split
    · exact .inr rfl
    · exact .inl rfl

/-- A cleared intent is an alteration exactly if the word has changed. -/
theorem fieldsDiffer_clearIntent (w : Word) : fieldsDiffer 0 w (w &&& 0xFFFC) = decide (w &&& 0xFFFC ≠ w) := by
  have hsplit : w &&& 0xFFFC ||| w &&& 3 = w := by
    rw [← BitVec.and_or_distrib_left]
    exact BitVec.and_allOnes
  by_cases h : w &&& 0xFFFC = w
  · rw [h, fieldsDiffer_self]
    simp
  · have hcode : w &&& 3 ≠ 0 := fun h0 => h (by rw [h0] at hsplit; exact BitVec.or_zero.symm.trans hsplit)
    have hcleared : w &&& 0xFFFC &&& 3 = 0 := by rw [BitVec.and_assoc]; exact BitVec.and_zero
    rw [decide_eq_true h]
    exact bne_iff_ne.mpr (fun he => hcode (he.trans hcleared))

theorem District.fieldsDiffer_filterIntent (x : District) (w : Word) :
    fieldsDiffer 0 w (x.filterIntent w) = decide (x.filterIntent w ≠ w) := by
  rcases x.filterIntent_cases w with h | h <;> rw [h]
  · simp
  · exact fieldsDiffer_clearIntent w

/-- Settles O13: the filtered word is stored, and the move and the reload touch no word, flag or mark. -/
theorem hostIntentWriteStoresFilteredWord : Obligations.HostIntentWriteStoresFilteredWord := by
  refine ⟨fun s d v l hf hp => ?_, fun s d v l hf hp => takenAfterCheckError hf hp (.inl ⟨rfl, rfl⟩)⟩
  refine ⟨_, _, _, exec_hostIntentWrite_of_passes hf hp ((s.dist d).filterIntent_eq _), rfl, rfl, ?_⟩
  rw [← District.filterIntent_eq, District.fieldsDiffer_filterIntent]
  generalize mergeLanes l v (s.dist d).words[(0 : Fin 5)] = w
  generalize (s.dist d).filterIntent w = stored
  have hstored := State.storeFiltered_eq s d 0 stored (decide (stored ≠ w))
  have hdist := State.dist_storeFiltered_same s d 0 stored (decide (stored ≠ w))
  have hothers := fun e => State.dist_storeFiltered_other s d e 0 stored (decide (stored ≠ w))
  generalize s.storeFiltered d 0 stored (decide (stored ≠ w)) = t at hstored hdist hothers
  have hmoved := ((MovedByHost.refl t d).intentMove (intentOf stored)).reloadWord 0
  generalize (t.intentMove d (intentOf stored)).reloadWord d 0 = u at hmoved ⊢
  rw [hmoved.words, hmoved.flags, hmoved.polarity, hmoved.attempts, hdist]
  refine ⟨District.storing_word _ 0 _ _, fun i hi => District.storing_word_other _ 0 i _ _ hi, ?_, fun p => ?_, rfl,
    rfl, rfl, fun e he => (hmoved.others e he).trans (hothers e he), ?_, ?_, ?_, ?_⟩
  all_goals rw [hmoved.state, hstored]
  exact State.mem_unmark s _ p

/-! ### Words 1 to 4 (R136, R139, R140) -/

/-- Outside the accepting states the old word is kept, and REFUSED tells an alteration (R139). -/
theorem State.filterWord_of_closed (s : State) (d : DistrictId) (w : Fin 5) (v : Word)
    (h : (s.dist d).acceptsWords = false) : s.filterWord d w v = (s.dist d).words[w]
      ∧ s.wordRefused d w v = fieldsDiffer w v (s.dist d).words[w] := by
  have hkept : s.filterWord d w v = (s.dist d).words[w] := by
    rw [State.filterWord, h]
    rfl
  exact ⟨hkept, by rw [State.wordRefused, hkept, h, Bool.false_and, Bool.or_false]⟩

theorem District.acceptsWords_iff (x : District) : x.acceptsWords = true ↔
    x.invalid = true ∨ x.state = .off ∨ x.state = .lockout ∨ x.state = .unreachable ∨ x.state = .checkHold := by
  rw [District.acceptsWords, Bool.or_eq_true]
  refine or_congr_right ?_
  cases x.state <;> decide

/-- Settles O17: the old word is stored, which changes no mapping and reloads nothing, so no notice or scan follows. -/
theorem districtWordKeptOutsideAcceptingStates : Obligations.DistrictWordKeptOutsideAcceptingStates := by
  intro s d w v l hf hp hi hoff hlockout hunreachable hhold
  have hclosed : (s.dist d).acceptsWords = false := by
    refine eq_false_of_ne_true (fun h => ?_)
    rcases (s.dist d).acceptsWords_iff.mp h with h | h | h | h | h
    · rw [hi] at h
      cases h
    · exact hoff h
    · exact hlockout h
    · exact hunreachable h
    · exact hhold h
  have hagrees : (s.dist d).codeAgrees = true := by
    have hpd : s.checkFails d = false := hp
    simpa [State.checkFails, hi] using hpd
  obtain ⟨hkept, hrefused⟩ := s.filterWord_of_closed d w.succ (mergeLanes l v (s.dist d).words[w.succ]) hclosed
  have hsame : mappingChanged (s.dist d).words[w.succ] (s.dist d).words[w.succ] = false := by simp [mappingChanged]
  have hdist := s.dist_storeFiltered_same d w.succ (s.dist d).words[w.succ]
  have hunmapped : ¬(w.succ = 1
      ∧ mappingChanged (s.dist d).words[w.succ] (s.dist d).words[w.succ] = true) := by
    rw [hsame]
    exact fun h => Bool.false_ne_true h.2
  rw [exec_districtWordWrite_of_passes hf hp rfl rfl, hkept, hrefused, if_neg hunmapped,
    State.reloadWord_of_valid _ d _ (by rw [hdist]; exact hi),
    s.finish_of_same d _ (by rw [hdist]; rfl) (by simp) (by simp), State.storeFiltered_eq, District.storing, put_self,
    ← hagrees]

/-- The tests of R140 in the spec's terms. -/
theorem State.mappingFails_iff (s : State) (d : DistrictId) (w : Fin 4) (m : Word) :
    s.mappingFails d w.succ m = true ↔
      (w = 0 ∧ (9 ≤ field m 0 4 ∨ field m 0 4 ≠ 0 ∧ ∃ e : DistrictId, e ≠ d
          ∧ field (s.dist e).words[(1 : Fin 5)] 0 4 = field m 0 4
          ∧ field (s.dist e).words[(1 : Fin 5)] 4 2 = field m 4 2))
        ∨ (w = 1 ∧ 8 ≤ field m 0 4) := by
  have hpair : s.pairTaken d m = true ↔ ∃ e : DistrictId, e ≠ d
      ∧ field (s.dist e).words[(1 : Fin 5)] 0 4 = field m 0 4
      ∧ field (s.dist e).words[(1 : Fin 5)] 4 2 = field m 4 2 := by
    simp [State.pairTaken, District.nodeField, and_assoc]
  have h8 : 8 < field m 0 4 ↔ 9 ≤ field m 0 4 := Iff.rfl
  have h7 : 7 < field m 0 4 ↔ 8 ≤ field m 0 4 := Iff.rfl
  rw [← hpair, ← h8, ← h7]
  match w with
  | 0 => simp [State.mappingFails]
  | 1 => simp [State.mappingFails]
  | 2 => simp [State.mappingFails]
  | 3 => simp [State.mappingFails]

/-- An accepted write stores the old word where a test fails, and the clamped value otherwise (R137, R140). -/
theorem State.filterWord_of_accepting (s : State) (d : DistrictId) (w : Fin 5) (v : Word)
    (h : (s.dist d).acceptsWords = true) : s.filterWord d w v =
      if s.mappingFails d w v then (s.dist d).words[w] else clampDistrictWord w v := by
  rw [State.filterWord, h]
  cases s.mappingFails d w v <;> rfl

/-- The inrush weight and the ramp steps clamped, every other bit as written (R137). -/
theorem clampDistrictWord_three (m : Word) : field (clampDistrictWord 3 m) 0 4 = max 1 (field m 0 4)
    ∧ field (clampDistrictWord 3 m) 8 5 = max 1 (min 16 (field m 8 5))
    ∧ clampDistrictWord 3 m &&& 0xE0F0 = m &&& 0xE0F0 := by
  refine ⟨?_, ?_, ?_⟩ <;> simp only [clampDistrictWord]
  · rw [field_clampField_other _ (by decide) (.inl (by decide))]
    exact field_clampField_raised _ (by decide) (by decide)
  · rw [field_clampField_same _ (by decide) (by decide) (by decide),
      field_clampField_other _ (by decide) (.inr (by decide))]
  · rw [clampField_and_mask _ (by decide) (by decide), clampField_and_mask _ (by decide) (by decide)]

/-- The step interval and the step ceiling clamped, every other bit as written (R137). -/
theorem clampDistrictWord_four (m : Word) : field (clampDistrictWord 4 m) 0 5 = max 1 (min 16 (field m 0 5))
    ∧ field (clampDistrictWord 4 m) 8 8 = max 1 (field m 8 8)
    ∧ clampDistrictWord 4 m &&& 0x00E0 = m &&& 0x00E0 := by
  refine ⟨?_, ?_, ?_⟩ <;> simp only [clampDistrictWord]
  · rw [field_clampField_other _ (by decide) (.inl (by decide)),
      field_clampField_same _ (by decide) (by decide) (by decide)]
  · refine (field_clampField_raised _ (by decide) (by decide)).trans ?_
    rw [field_clampField_other _ (by decide) (.inr (by decide))]
  · rw [clampField_and_mask _ (by decide) (by decide), clampField_and_mask _ (by decide) (by decide)]

/-- What an accepted write stores, word by word (R137, R140). -/
theorem State.filterWord_spec (s : State) (d : DistrictId) (w : Fin 4) (m : Word)
    (h : (s.dist d).acceptsWords = true) :
    (s.mappingFails d w.succ m = true → s.filterWord d w.succ m = (s.dist d).words[w.succ])
      ∧ (¬s.mappingFails d w.succ m = true → (w = 0 ∨ w = 1) → s.filterWord d w.succ m = m)
      ∧ (w = 2 → s.filterWord d w.succ m = clampDistrictWord 3 m)
      ∧ (w = 3 → s.filterWord d w.succ m = clampDistrictWord 4 m) := by
  rw [s.filterWord_of_accepting d w.succ m h]
  refine ⟨fun hfails => if_pos hfails, fun hfails hw => (if_neg hfails).trans ?_, ?_, ?_⟩
  · rcases hw with rfl | rfl <;> rfl
  · rintro rfl
    rfl
  · rintro rfl
    rfl

/-- Settles O18: the tested and clamped word is stored, and a changed mapping and the reload touch no other word. -/
theorem districtWordTestedAndClamped : Obligations.DistrictWordTestedAndClamped := by
  refine ⟨fun s d w v l hf hp hs => ?_, fun s d w v l hf hp => takenAfterCheckError hf hp (.inr ⟨w, rfl, rfl⟩)⟩
  have hacc := (s.dist d).acceptsWords_iff.mpr hs
  obtain ⟨u, hx, hmoved⟩ := exec_districtWordWrite_remapped (v := v) (l := l) hf hp (rfl : w.succ = w.succ) rfl
  generalize mergeLanes l v (s.dist d).words[w.succ] = m at hmoved ⊢
  obtain ⟨hkept, hplain, hthree, hfour⟩ := s.filterWord_spec d w m hacc
  have hrefused : s.wordRefused d w.succ m = true ↔
      s.mappingFails d w.succ m = true ∨ fieldsDiffer w.succ m (s.filterWord d w.succ m) = true := by
    rw [State.wordRefused, hacc, Bool.true_and, Bool.or_eq_true, or_comm]
  have hdist := s.dist_storeFiltered_same d w.succ (s.filterWord d w.succ m) (s.wordRefused d w.succ m)
  refine ⟨u, m, s.filterWord d w.succ m, _, hx, rfl, s.mappingFails_iff d w m, hkept, hplain, fun hw => ?_,
    fun hw => ?_, ?_, ?_, ?_, fun p hp0 => ?_, fun i hi0 hiw => ?_, fun e he => ?_, ?_⟩
  · rw [hthree hw]
    exact clampDistrictWord_three m
  · rw [hfour hw]
    exact clampDistrictWord_four m
  · rw [hmoved.words _ (Fin.succ_ne_zero w), hdist, District.storing_word]
  · rw [hmoved.state, State.storeFiltered_eq]
  · rw [hmoved.flags, hdist, ← hrefused]
    exact Bool.or_eq_true _ _ |>.to_iff
  · rw [hmoved.marks p hp0, State.storeFiltered_eq]
    exact State.mem_unmark s _ p
  · rw [hmoved.words i hi0, hdist, District.storing_word_other _ _ _ _ _ hiw]
  · rw [hmoved.others e he, State.dist_storeFiltered_other _ _ _ _ _ _ he]
  · rw [hmoved.state, State.storeFiltered_eq]
    exact ⟨rfl, rfl, rfl, rfl, rfl, rfl⟩

end Sys2Proof.Machine
end

section
/-! SUPPORT. What no operation but a lock write, LOCK_FREEZE and a full reset changes: the freeze flag, the lock set and
the districts in LOCKED (R24, R153, R156). -/

namespace Sys2Proof.Machine

open Sys2Proof

/-- Each LOCKED district stands neither in the restart queue nor on a ramp engine. -/
def LockedApart (s : State) : Prop :=
  ∀ d, (s.dist d).state = .locked → d ∉ s.queue ∧ ∀ e, (s.engine e).district ≠ some d

theorem RestartAgrees.lockedApart {s : State} (h : RestartAgrees s) : LockedApart s := fun d hd => by
  have hout : OutOfPlay d s := h.outOfPlay (by rw [hd]; decide)
  exact ⟨hout.unqueued, hout.unheld⟩

/-- The freeze flag and the lock set stand from s to t, and so do the districts in LOCKED and their place apart, if
they stood apart. -/
def LocksStand (s t : State) : Prop :=
  t.freeze = s.freeze ∧ t.control.lockSet = s.control.lockSet
    ∧ (LockedApart s → LockedApart t ∧ ∀ d, (t.dist d).state = .locked ↔ (s.dist d).state = .locked)

theorem LocksStand.refl (s : State) : LocksStand s s := ⟨rfl, rfl, fun hs => ⟨hs, fun _ => .rfl⟩⟩

theorem LocksStand.trans {s t u : State} (h : LocksStand s t) (g : LocksStand t u) : LocksStand s u := by
  obtain ⟨hfreeze, hset, hlocked⟩ := h
  obtain ⟨gfreeze, gset, glocked⟩ := g
  refine ⟨gfreeze.trans hfreeze, gset.trans hset, fun hs => ?_⟩
  obtain ⟨ht, hstates⟩ := hlocked hs
  obtain ⟨hu, gstates⟩ := glocked ht
  exact ⟨hu, fun d => (gstates d).trans (hstates d)⟩

/-- The locks stand from r to s, and district d is not LOCKED in s. -/
def StandsUnlocked (d : DistrictId) (r s : State) : Prop := LocksStand r s ∧ (s.dist d).state ≠ .locked

theorem StandsUnlocked.stand {d : DistrictId} {r s : State} (h : StandsUnlocked d r s) : LocksStand r s := h.1

/-! ### Operations that move no district -/

section
variable {r s : State} (h : LocksStand r s)
include h

theorem LocksStand.unlocked {d : DistrictId} {st : DistrictState} (hd : (s.dist d).state = st)
    (hst : st ≠ .locked := by decide) : StandsUnlocked d r s := ⟨h, hd ▸ hst⟩

/-- The states as they were, the queue and the engines with no district more. -/
theorem LocksStand.of_same {t : State} (hfreeze : t.freeze = s.freeze) (hset : t.control.lockSet = s.control.lockSet)
    (hs : ∀ d, (t.dist d).state = (s.dist d).state) (hq : ∀ d ∈ t.queue, d ∈ s.queue)
    (he : ∀ e d, (t.engine e).district = some d → (s.engine e).district = some d) : LocksStand r t := by
  refine h.trans ⟨hfreeze, hset, fun hapart => ⟨fun d hd => ?_, fun d => by rw [hs]⟩⟩
  obtain ⟨hqueue, hengine⟩ := hapart d (hs d ▸ hd)
  exact ⟨fun hm => hqueue (hq d hm), fun e hde => hengine e (he e d hde)⟩

/-- What no claim goes beyond keeps the flag and the set; the rest may use that LOCKED districts stand apart. -/
theorem LocksStand.of_calm {t : State} (hc : Calm s t) (ht : LockedApart s → LocksStand r t) : LocksStand r t := by
  obtain ⟨hfreeze, hset, hlocked⟩ := h
  exact ⟨hc.freeze.trans hfreeze, by rw [hc.control, hset], fun hr => (ht (hlocked hr).1).2.2 hr⟩

theorem LocksStand.modDist (d : DistrictId) (f : District → District)
    (hf : (f (s.dist d)).state = (s.dist d).state) : LocksStand r (s.modDist d f) :=
  h.of_same rfl rfl (fun c => s.state_modDist_of_keeps d c hf) (fun _ hc => hc) (fun _ _ he => he)

theorem LocksStand.setIntentOff (d : DistrictId) : LocksStand r (s.setIntentOff d) := h.modDist d _ rfl

theorem LocksStand.modEngine (e : EngineId) (f : Engine → Engine)
    (hf : ∀ d, (f (s.engine e)).district = some d → (s.engine e).district = some d) :
    LocksStand r (s.modEngine e f) := by
  refine h.of_same rfl rfl (fun _ => rfl) (fun _ hc => hc) (fun i d hd => ?_)
  rw [State.engine_modEngine] at hd
  split at hd
  · next hi => subst hi; exact hf d hd
  · exact hd

theorem LocksStand.freeEngine (e : EngineId) : LocksStand r (s.freeEngine e) :=
  LocksStand.modEngine (s := s.modFeed _ _) h e _ (fun _ hd => by cases hd)

theorem LocksStand.freeEngineOf (d : DistrictId) : LocksStand r (s.freeEngineOf d) := by
  unfold State.freeEngineOf
  split
  · exact h.freeEngine _
  · exact h

theorem LocksStand.depart (d : DistrictId) : LocksStand r (s.depart d) :=
  (h.freeEngineOf d).of_same rfl rfl (fun _ => rfl) (fun _ => List.mem_of_mem_erase) (fun _ _ he => he)

theorem LocksStand.mark (p : IntentPos) : LocksStand r (s.mark p) := by
  unfold State.mark
  split <;> exact h

theorem LocksStand.countAttempt (d : DistrictId) : LocksStand r (s.countAttempt d) :=
  h.modDist d _ (by split <;> rfl)

end

/-! ### Operations that move one district -/

section
variable {d : DistrictId} {r s : State} (h : StandsUnlocked d r s)
include h

theorem StandsUnlocked.modDist (f : District → District) (hf : (f (s.dist d)).state ≠ .locked) :
    StandsUnlocked d r (s.modDist d f) := by
  obtain ⟨hstand, hd⟩ := h
  have hother {c : DistrictId} (hc : c ≠ d) : (s.modDist d f).dist c = s.dist c := s.dist_modDist_other d f c hc
  have hsame : ((s.modDist d f).dist d).state ≠ .locked := by rwa [s.dist_modDist_same]
  refine ⟨hstand.trans ⟨rfl, rfl, fun hapart => ⟨fun c hc => ?_, fun c => ?_⟩⟩, hsame⟩
  · have hcd : c ≠ d := fun hcd => hsame (hcd ▸ hc)
    exact hapart c (hother hcd ▸ hc)
  · by_cases hcd : c = d
    · subst hcd
      exact iff_of_false hsame hd
    · rw [hother hcd]

theorem StandsUnlocked.enter (st : DistrictState) (hst : st ≠ .locked := by decide) :
    StandsUnlocked d r (s.enter d st) := h.modDist _ hst

theorem StandsUnlocked.modDistSame (f : District → District) (hf : (f (s.dist d)).state = (s.dist d).state) :
    StandsUnlocked d r (s.modDist d f) := h.modDist f (by rw [hf]; exact h.2)

theorem StandsUnlocked.setIntentOff : StandsUnlocked d r (s.setIntentOff d) := h.modDistSame _ rfl

/-- d alone may join the queue. -/
theorem StandsUnlocked.queue (q : List DistrictId) (hq : ∀ c ∈ q, c = d ∨ c ∈ s.queue) :
    StandsUnlocked d r { s with queue := q } := by
  obtain ⟨hstand, hd⟩ := h
  refine ⟨hstand.trans ⟨rfl, rfl, fun hapart => ⟨fun c hc => ?_, fun _ => .rfl⟩⟩, hd⟩
  obtain ⟨hqueue, hengine⟩ := hapart c hc
  exact ⟨fun hm => (hq c hm).elim (fun hcd => hd (hcd ▸ hc)) hqueue, hengine⟩

/-- d alone may take an engine. -/
theorem StandsUnlocked.modEngine (e : EngineId) (f : Engine → Engine)
    (hf : ∀ c, (f (s.engine e)).district = some c → c = d) : StandsUnlocked d r (s.modEngine e f) := by
  obtain ⟨hstand, hd⟩ := h
  refine ⟨hstand.trans ⟨rfl, rfl, fun hapart => ⟨fun c hc => ?_, fun _ => .rfl⟩⟩, hd⟩
  obtain ⟨hqueue, hengine⟩ := hapart c hc
  refine ⟨hqueue, fun i hi => ?_⟩
  rw [State.engine_modEngine] at hi
  split at hi
  · exact hd (hf c hi ▸ hc)
  · exact hengine i hi

theorem StandsUnlocked.insert (P : DistrictId → Bool) :
    StandsUnlocked d r { s with queue := insertAfterLast P d s.queue } :=
  h.queue _ (fun _ hc => List.mem_cons.mp ((insertAfterLast_perm P d s.queue).mem_iff.mp hc))

theorem StandsUnlocked.enterQueued (b : Bool) : StandsUnlocked d r (s.enterQueued d b) :=
  ((h.modDistSame (fun x => { x with mark := b }) rfl).enter .queued).insert _

theorem StandsUnlocked.returnToQueue : StandsUnlocked d r (s.returnToQueue d) := (h.enter .queued).insert _

theorem StandsUnlocked.freeEngine (e : EngineId) : StandsUnlocked d r (s.freeEngine e) := ⟨h.1.freeEngine e, h.2⟩

theorem StandsUnlocked.freeEngineOf : StandsUnlocked d r (s.freeEngineOf d) := by
  unfold State.freeEngineOf
  split
  · exact h.freeEngine _
  · exact h

theorem StandsUnlocked.depart : StandsUnlocked d r (s.depart d) :=
  ⟨h.1.depart d, by rw [s.dist_depart]; exact h.2⟩

theorem StandsUnlocked.countAttempt : StandsUnlocked d r (s.countAttempt d) :=
  h.modDistSame _ (by split <;> rfl)

theorem StandsUnlocked.mark (p : IntentPos) : StandsUnlocked d r (s.mark p) :=
  ⟨h.1.mark p, by rw [s.dist_mark]; exact h.2⟩

end

/-! ### Check errors, notices and scans (R22, R47, R49, R70 to R76) -/

section
variable {r s : State} (h : LocksStand r s)
include h

/-- A check error leaves a LOCKED district LOCKED, and locks none (R22, R24). -/
theorem LocksStand.checkError (d : DistrictId) : LocksStand r (s.checkError d) := by
  have hmoved : LocksStand r (if (s.dist d).state = .locked then s else (s.depart d).enter d .checkHold) := by
    split
    · exact h
    · next hd => exact (StandsUnlocked.enter (StandsUnlocked.depart ⟨h, hd⟩) .checkHold).stand
  exact hmoved.modDist d (fun x => ({ x with invalid := true, reload := 0 } : District).latchCheckError) rfl

theorem LocksStand.closeSlot (n : SlotId) : LocksStand r (s.closeSlot n) := by
  obtain ⟨contexts, ring, slots, hclose, -⟩ := s.closeSlot_eq n
  exact h.of_same (by rw [hclose]) (by rw [hclose]) (fun d => (apart_closeSlot d s n).state)
    (fun d hd => by rwa [hclose] at hd) (fun e d hd => by rw [hclose] at hd; exact hd)

theorem LocksStand.releaseSuspect {d : DistrictId} (hd : (s.dist d).state = .gated) :
    LocksStand r (s.releaseSuspect d) := by
  unfold State.releaseSuspect
  split
  · exact h.checkError d
  · exact ((h.unlocked hd).enterQueued true).stand

theorem LocksStand.settleSlot (fuel : Nat) (n : SlotId) : LocksStand r (settleSlot fuel n s) :=
  settleSlot_keeps (fun _ m ht => ht.closeSlot m) (fun _ _ ht hd => ht.releaseSuspect hd) fuel n s h

theorem LocksStand.notify (before : State) (d : DistrictId) : LocksStand r (before.notify d s) :=
  State.notify_keeps (fun _ n ht => ht.closeSlot n) (fun _ _ ht hc => ht.releaseSuspect hc) before d s h

theorem LocksStand.commandStep (e : EngineId) (d : DistrictId) (i : Nat) : LocksStand r (s.commandStep e d i) :=
  LocksStand.modDist (s := s.modEngine e _) (h.modEngine e _ (fun _ hc => hc)) d _ rfl

omit h in
theorem StandsUnlocked.beginRamp {d : DistrictId} (h : StandsUnlocked d r s) (e : EngineId) :
    StandsUnlocked d r (s.beginRamp e d) := by
  have htaken : StandsUnlocked d r (s.takeEngine e d) :=
    ((h.queue _ (fun c hc => .inr (List.mem_of_mem_erase hc))).modEngine e _
      (fun c hc => (Option.some.inj hc).symm)).enter .ramping
  refine ⟨?_, by rw [s.state_beginRamp]; decide⟩
  unfold State.beginRamp
  split
  · exact htaken.stand
  · exact htaken.stand.commandStep e d 1

omit h in
theorem StandsUnlocked.completeRamp {d : DistrictId} (h : StandsUnlocked d r s) (e : EngineId) :
    StandsUnlocked d r (s.completeRamp e d) := ((h.enter .proving).countAttempt).freeEngine e

theorem LocksStand.grant {e : EngineId} {d : DistrictId} (hd : d ∈ s.queue) (ha : s.admissible d = true) :
    LocksStand r (s.grant e d) := by
  refine h.of_calm (calm_grant s e d ha) (fun hapart => ?_)
  have hfree : StandsUnlocked d r s := ⟨h, fun hl => (hapart d hl).1 hd⟩
  have hbegun := (hfree.beginRamp e).stand.notify s d
  unfold State.grant
  dsimp only
  split
  · exact (h.checkError d).notify s d
  · split
    · have hramping : ((s.notify d (s.beginRamp e d)).dist d).state = .ramping := by
        rw [(apart_notify s d (by rw [s.state_beginRamp]; decide)).state, s.state_beginRamp]
      exact ((hbegun.unlocked hramping).completeRamp e).stand.notify _ d
    · exact hbegun

theorem LocksStand.scan : LocksStand r s.scan :=
  State.scan_keeps (fun _ _ _ ht _ hd ha => ht.grant hd ha) s h

theorem LocksStand.rescan (before : State) : LocksStand r (before.rescan s) := by
  unfold State.rescan
  split
  · exact h.scan
  · exact h

/-! ### Claims -/

theorem LocksStand.finish (before : State) (d : DistrictId) : LocksStand r (before.finish d s) :=
  (h.notify before d).rescan before

theorem LocksStand.raiseCheck (d : DistrictId) : LocksStand r (s.raiseCheck d) := (h.checkError d).finish s d

theorem LocksStand.claim (d : DistrictId) {f : State → State} (hf : LocksStand r (f s)) :
    LocksStand r (s.claim d f) := by
  unfold State.claim
  split
  · exact h.raiseCheck d
  · exact hf.finish s d

theorem LocksStand.claimUnscanned (d : DistrictId) {f : State → State} (hf : LocksStand r (f s)) :
    LocksStand r (s.claimUnscanned d f) := by
  unfold State.claimUnscanned
  refine LocksStand.notify ?_ s d
  split
  · exact h.checkError d
  · exact hf

theorem LocksStand.inFreeOrder {α : Type} (l : List α) {f : α → State → State}
    (hf : ∀ a t, LocksStand r t → LocksStand r (f a t)) : LocksStand r (s.inFreeOrder l f) :=
  State.inFreeOrder_keeps l f (fun _ ht => ht) (fun a _ => hf a) s h

end

end Sys2Proof.Machine
end

section
/-! SUPPORT. Cuts, closes, timers, the feeds and HOLD leave the locks standing. -/

namespace Sys2Proof.Machine

open Sys2Proof

/-! ### Close states (R35, R43, R45, R56, R57) -/

section
variable {d : DistrictId} {r s : State} (h : StandsUnlocked d r s)
include h

theorem StandsUnlocked.enterLockout : StandsUnlocked d r (s.enterLockout d) := by
  unfold State.enterLockout
  refine ((StandsUnlocked.enter ?_ .lockout).modDistSame District.latchLockout rfl).setIntentOff.mark _
  split <;> exact h

theorem StandsUnlocked.flip : StandsUnlocked d r (s.flip d) := by
  have hreversing : StandsUnlocked d r (s.enterReversing d) := (h.modDistSame _ rfl).enter .reversing
  unfold State.flip
  split
  · exact hreversing.returnToQueue
  · exact hreversing

theorem StandsUnlocked.enterCloseState : StandsUnlocked d r (s.enterCloseState d) := by
  unfold State.enterCloseState
  split
  · exact h.enter .stopped
  · split
    · exact h.enterLockout
    · split
      · exact h.flip
      all_goals exact h.enter .holdoff

/-! ### Cuts (R31 to R36, R45) -/

theorem StandsUnlocked.leaveEnergised : StandsUnlocked d r (s.leaveEnergised d) := by
  unfold State.leaveEnergised
  split
  · exact h.countAttempt.freeEngine _
  · exact h

theorem StandsUnlocked.furtherCut (n : SlotId) (c : Cut) : StandsUnlocked d r (s.furtherCut n d c) := by
  have hlatched := h.modDistSame District.latchTripped rfl
  unfold State.furtherCut
  dsimp only
  split
  · exact hlatched.modDistSame (fun x => { x with lastCause := some c.cause }) rfl
  · exact hlatched

theorem StandsUnlocked.solitary (c : Cut) : StandsUnlocked d r (s.solitary d c) := by
  have hclosed : StandsUnlocked d r ((s.recordSolitary d c).enterCloseState d) :=
    StandsUnlocked.enterCloseState (StandsUnlocked.modDistSame (s := s.modRing _) h _ rfl)
  unfold State.solitary
  dsimp only
  split
  · exact hclosed.modDistSame _ rfl
  · exact hclosed

theorem StandsUnlocked.nameSlot (n : SlotId) : StandsUnlocked d r (s.nameSlot d n) := h.modDistSame _ rfl

theorem StandsUnlocked.newTrip (c : Cut) : StandsUnlocked d r (s.newTrip d c) := by
  have htripped : StandsUnlocked d r ((s.leaveEnergised d).enterTripped d c) :=
    (h.leaveEnergised.enter .tripped).modDistSame _ rfl
  unfold State.newTrip
  dsimp only
  split
  · exact StandsUnlocked.nameSlot (s := State.modSlot _ _ _) htripped _
  · split
    · exact StandsUnlocked.nameSlot (s := State.modSlot _ _ _) htripped _
    · exact htripped.solitary c

theorem StandsUnlocked.reTrip (n : SlotId) (c : Cut) : StandsUnlocked d r (s.reTrip n d c) := by
  have hsuspect : StandsUnlocked d r (s.becomeSuspect n d c) :=
    (h.leaveEnergised.modDistSame _ rfl).modDistSame (fun x => { x with role := .suspect }) rfl
  unfold State.reTrip
  dsimp only
  split
  · exact hsuspect.enter .stopped
  · split
    · exact hsuspect.enterLockout
    · exact hsuspect.enter .holdoff

end

section
variable {r s : State} (h : LocksStand r s)
include h

/-- Each state that a cut moves a district from is energised or TRIPPED (R31). -/
theorem LocksStand.takeCut (d : DistrictId) (c : Cut) : LocksStand r (s.takeCut d c) := by
  have henergised (he : (s.dist d).state.energised = true) : StandsUnlocked d r s :=
    ⟨h, fun hd => by rw [hd] at he; cases he⟩
  unfold State.takeCut
  split
  · split
    · split
      next hd => exact ((h.unlocked hd).furtherCut _ c).stand
      case _ hd | _ hd | _ hd =>
        exact (((h.unlocked hd).leaveEnergised.enter .tripped).furtherCut _ c).stand
      all_goals exact h
    · split
      · next he => exact ((henergised he).reTrip _ c).stand
      · exact h
    all_goals exact h
  · split
    · next he => exact ((henergised he).newTrip c).stand
    · exact h

/-! ### Returns to the queue and sag notices (R60, R66, R83, R93, R94) -/

theorem LocksStand.returnEffect (d : DistrictId) : LocksStand r (s.returnEffect d) := by
  unfold State.returnEffect
  split
  · next hd => exact (h.unlocked hd).freeEngineOf.returnToQueue.stand
  · next hd => exact ((h.unlocked hd).modDistSame _ rfl).returnToQueue.stand
  all_goals exact h

theorem LocksStand.returnClaim (d : DistrictId) : LocksStand r (State.returnClaim d s) := by
  unfold State.returnClaim
  split
  · exact h.claim d (h.returnEffect d)
  · exact h

theorem LocksStand.feedLeavesUp (k : FeedId) : LocksStand r (s.feedLeavesUp k) :=
  h.inFreeOrder _ (fun d _ ht => ht.returnClaim d)

theorem LocksStand.sagNotice (k : FeedId) : LocksStand r (State.sagNotice k s) :=
  State.sagNotice_keeps (fun _ _ _ ht => ht) (fun d _ ht => ht.returnClaim d) (fun _ ht => ht) k s h

/-! ### Closes (R38 to R44) -/

theorem LocksStand.giveRole (m : Member) : LocksStand r (s.giveRole m) := by
  unfold State.giveRole
  split
  · exact h
  · exact h.modDist _ _ rfl

theorem LocksStand.enterMember (m : Member) : LocksStand r (s.enterMember m) := by
  unfold State.enterMember
  split
  · exact h
  · next hd =>
    have htripped := h.unlocked (Decidable.of_not_not hd)
    split
    · exact h.checkError _
    · split
      · exact (htripped.enter _).stand
      · exact htripped.enterCloseState.stand

theorem LocksStand.enterCloseStates (n : SlotId) : LocksStand r (s.enterCloseStates n) := by
  have hroles : LocksStand r (s.fixRoles n) := by
    rw [s.fixRoles_eq]
    exact foldl_keeps State.giveRole _ (fun m _ _ ht => ht.giveRole m) _ h
  rw [s.enterCloseStates_eq]
  exact foldl_keeps State.enterMember _ (fun m _ _ ht => ht.enterMember m) _ hroles

theorem LocksStand.closeGathering (n : SlotId) : LocksStand r (State.closeGathering n s) := by
  have hsettled := ((h.enterCloseStates n).settleSlot 33 n).rescan s
  unfold State.closeGathering State.afterClose
  dsimp only
  split
  · exact hsettled.inFreeOrder _ (fun k _ ht => ht.sagNotice k)
  · exact hsettled

theorem LocksStand.gatheringExpires (n : SlotId) : LocksStand r (State.gatheringExpires n s) := by
  unfold State.gatheringExpires
  dsimp only
  split
  · split
    · exact LocksStand.closeGathering (s := s.modSlot n _) h n
    · exact h
  · exact h

theorem LocksStand.roundEnd : LocksStand r s.roundEnd := by
  unfold State.roundEnd
  refine LocksStand.inFreeOrder ?_ _ (fun n _ ht => ht.closeGathering n)
  exact h

/-! ### The timers of districts and engines (R18, R20, R78 to R80, R87) -/

theorem LocksStand.holdoffExpires (d : DistrictId) : LocksStand r (State.holdoffExpires d s) := by
  unfold State.holdoffExpires
  split
  · next hx =>
    have hfree := h.unlocked hx.1
    refine h.claim d ?_
    unfold State.leaveHoldoff
    split
    · exact (hfree.enter _).stand
    · exact (hfree.enterQueued true).stand
  · exact h

omit h in
theorem StandsUnlocked.restore {d : DistrictId} (h : StandsUnlocked d r s) : StandsUnlocked d r (s.restore d) := by
  have hlatched := h.modDistSame District.latchRestored rfl
  unfold State.restore
  dsimp only
  split <;> exact hlatched

theorem LocksStand.provingExpires (d : DistrictId) : LocksStand r (State.provingExpires d s) := by
  unfold State.provingExpires
  split
  · next hx =>
    have hfree := h.unlocked hx.1
    refine h.claim d (StandsUnlocked.enter ?_ .live).stand
    split
    · exact hfree.restore
    · exact hfree
  · exact h

theorem LocksStand.quietExpires (d : DistrictId) : LocksStand r (State.quietExpires d s) := by
  unfold State.quietExpires
  split
  · exact h.claim d (h.modDist d _ rfl)
  · exact h

theorem LocksStand.stallAbort (e : EngineId) (d : DistrictId) : LocksStand r (s.stallAbort e d) :=
  (((h.modDist d District.latchStalled rfl).countAttempt d).freeEngine e).takeCut d _

/-- No engine steps a LOCKED district. -/
theorem LocksStand.stepExpires (e : EngineId) : LocksStand r (State.stepExpires e s) := by
  refine h.of_calm (calm_stepExpires e s) (fun hapart => ?_)
  unfold State.stepExpires
  dsimp only
  split
  · next d _ hd _ =>
    have hfree : StandsUnlocked d r s := ⟨h, fun hl => (hapart d hl).2 e hd⟩
    split
    · split
      · exact h.commandStep e d _
      · exact h.claim d (hfree.completeRamp e).stand
    · split
      · exact h.modEngine e _ (fun _ hc => hc)
      · exact h.claim d (h.stallAbort e d)
  · exact h

/-! ### Feeds and HOLD (R91, R92, R97, R157, R158) -/

theorem LocksStand.lineLow (k : FeedId) : LocksStand r (State.lineLow k s) := by
  have hdown : LocksStand r (State.modFeed { s with lines := put s.lines k false } k
      (fun f => { f with state := .down, settleTimer := .none })) := h
  unfold State.lineLow
  dsimp only
  split
  · split
    · exact hdown.feedLeavesUp k
    · exact hdown
  · exact h

theorem LocksStand.lineHigh (k : FeedId) : LocksStand r (State.lineHigh k s) := by
  unfold State.lineHigh
  dsimp only
  split
  · exact h
  · split <;> exact h

theorem LocksStand.settleExpires (k : FeedId) : LocksStand r (State.settleExpires k s) := by
  unfold State.settleExpires
  split
  · split
    · exact h
    · exact LocksStand.scan (s := s.modFeed k _) h
  · exact h

theorem LocksStand.drainExpires : LocksStand r s.drainExpires := by
  have hdrained : LocksStand r { s.drainAll with drainTimer := some s.control.drainMicros } := h
  unfold State.drainExpires
  dsimp only
  split
  · exact hdrained.scan
  · exact hdrained

theorem LocksStand.assertHold : LocksStand r s.assertHold := by
  unfold State.assertHold
  split
  · exact h
  · exact LocksStand.inFreeOrder (s := { s with hold := true }) h _ (fun d _ ht => ht.returnClaim d)

theorem LocksStand.releaseHold : LocksStand r s.releaseHold := by
  unfold State.releaseHold
  split
  · exact LocksStand.scan (s := { s with hold := false }) h
  · exact h

end

end Sys2Proof.Machine
end

section
/-! SUPPORT. The link, host writes but of the lock set, commands but LOCK_FREEZE, and the access path leave the locks
standing. -/

namespace Sys2Proof.Machine

open Sys2Proof

section
variable {r s : State} (h : LocksStand r s)
include h

/-! ### The link (R108 to R120) -/

theorem LocksStand.pollChannel (k : NodeId) (c : ChannelId) : LocksStand r (State.pollChannel k s c) := by
  unfold State.pollChannel
  split
  · exact h
  · split
    · exact (h.raiseCheck _).modDist _ _ rfl
    · exact h.modDist _ _ rfl

theorem LocksStand.formPoll (k : NodeId) : LocksStand r (s.formPoll k) := by
  have hpolled : LocksStand r ((indices 4).foldl (State.pollChannel k) s) :=
    foldl_keeps _ _ (fun c _ _ ht => ht.pollChannel k c) s h
  unfold State.formPoll
  generalize (indices 4).foldl (State.pollChannel k) s = t at hpolled
  exact hpolled

theorem LocksStand.beginExchange : LocksStand r s.beginExchange := by
  unfold State.beginExchange
  split
  · exact h
  · refine LocksStand.formPoll ?_ _
    split <;> exact h

theorem LocksStand.lossClaim (d : DistrictId) : LocksStand r (State.lossClaim d s) := by
  refine h.claim d ?_
  unfold State.loseDistrict
  split
  -- UNREACHABLE, LOCKED and CHECK_HOLD stay; the other states are left for UNREACHABLE
  case h_1 | h_2 | h_3 => exact h
  all_goals next hd => exact ((h.unlocked hd).depart.enter .unreachable).stand

theorem LocksStand.loseNode (k : NodeId) : LocksStand r (s.loseNode k) :=
  LocksStand.inFreeOrder (s := s.modNode k _) h _ (fun d _ ht => ht.lossClaim d)

theorem LocksStand.missNode (k : NodeId) : LocksStand r (s.missNode k) := by
  unfold State.missNode
  split
  · exact h
  · split
    · exact h
    · exact LocksStand.loseNode (s := s.modNode k _) h k
  · exact h

theorem LocksStand.restartedNode (k : NodeId) : LocksStand r (s.restartedNode k) := by
  unfold State.restartedNode
  dsimp only
  split
  · exact LocksStand.loseNode (s := s.modNode k _) h k
  · exact h

theorem LocksStand.returnClaimAt (k : NodeId) (c : ChannelId) : LocksStand r (State.returnClaimAt k s c) := by
  unfold State.returnClaimAt
  split
  · split
    · next hd =>
      have hfree := h.unlocked hd
      refine h.claimUnscanned _ ?_
      unfold State.returnFromLoss
      split
      · exact (hfree.enterQueued false).stand
      · exact (hfree.enter .off).stand
    · exact h
  · exact h

theorem LocksStand.takeReadings (d : DistrictId) (x : ChannelReport) : LocksStand r (s.takeReadings d x) := by
  have hread := h.modDist d (fun y => { y with current := x.current }) rfl
  unfold State.takeReadings
  dsimp only
  split
  · split
    · split
      · exact hread.modEngine _ _ (fun _ hc => hc)
      · exact hread
    · next hd =>
      split
      · exact (((h.unlocked hd).modDistSame _ rfl).enter .proving).stand
      · exact hread
    all_goals exact hread
  · exact hread

/-- A channel's readings and cut, taken by either kind of claim. -/
theorem LocksStand.takeChannel {claim : State → DistrictId → (State → State) → State}
    (hclaim : ∀ t d f, LocksStand r t → LocksStand r (f t) → LocksStand r (claim t d f)) (k : NodeId) (x : Report)
    (timeBase : Stamp) (c : ChannelId) : LocksStand r (State.takeChannel claim k x timeBase s c) := by
  unfold State.takeChannel
  split
  · exact h
  · next d _ =>
    have hread := hclaim s d (fun u => u.takeReadings d (reportChannel x c)) h (h.takeReadings d _)
    dsimp only
    split
    · exact hclaim _ d _ hread (hread.takeCut d _)
    · exact hread

theorem LocksStand.storeChannels (k : NodeId) (x : Report) : LocksStand r (s.storeChannels k x) := h

theorem LocksStand.returnNode (k : NodeId) (x : Report) (timeBase : Stamp) :
    LocksStand r (s.returnNode k x timeBase) := by
  have hreturned : LocksStand r ((indices 4).foldl (State.returnClaimAt k) s) :=
    foldl_keeps _ _ (fun c _ _ ht => ht.returnClaimAt k c) s h
  exact LocksStand.rescan (foldl_keeps _ _
    (fun c _ _ ht => ht.takeChannel (fun _ d _ hu hf => hu.claimUnscanned d hf) k x timeBase c) _
    (hreturned.storeChannels k x)) s

theorem LocksStand.reportNode (k : NodeId) (x : Report) (timeBase : Stamp) :
    LocksStand r (s.reportNode k x timeBase) := by
  unfold State.reportNode
  dsimp only
  split
  · exact foldl_keeps (P := LocksStand r) _ _
      (fun c _ _ ht => ht.takeChannel (fun _ d _ hu hf => hu.claim d hf) k x timeBase c) _ h
  · exact LocksStand.returnNode (s := s.modNode k _) h k x timeBase

theorem LocksStand.endExchange {f : Exchange → State → State}
    (hf : ∀ x t, LocksStand r t → LocksStand r (f x t)) : LocksStand r (State.endExchange f s) := by
  unfold State.endExchange
  split
  · exact h
  · next x _ =>
    have hended := hf x { s with exchange := .none, nextNode := nextAddress x.node } h
    dsimp only
    split
    · exact hended.roundEnd
    · exact hended

theorem LocksStand.judgeReport (x : Report) (y : Exchange) : LocksStand r (State.judgeReport x y s) := by
  unfold State.judgeReport
  split
  · split
    · exact h.restartedNode y.node
    · exact h.reportNode y.node x y.timeBase
  · exact h.missNode y.node

/-! ### Host writes (R3, R11 to R16, R19, R23, R99, R132, R136 to R142) -/

/-- An intent word stored that is no half of the lock set. -/
theorem LocksStand.storeIntent (p : IntentPos) (v : Word) (hp : ∀ g, p ≠ .control (lockReg g)) :
    LocksStand r (s.storeIntent p v) := by
  cases p with
  | control x =>
    have hset : (s.control.store x v).lockSet = s.control.lockSet := by
      cases x
      case lockSetLow => exact absurd rfl (hp .low)
      case lockSetHigh => exact absurd rfl (hp .high)
      all_goals rfl
    exact h.of_same rfl hset (fun _ => rfl) (fun _ hc => hc) (fun _ _ he => he)
  | feed k x => exact h
  | adjacency j => exact h
  | district d w => exact h.modDist d (fun x => x.setWord w v) rfl

theorem LocksStand.readForWrite (d : DistrictId) : LocksStand r (s.readForWrite d) := by
  unfold State.readForWrite
  split
  · exact h.raiseCheck d
  · exact h

theorem LocksStand.storeFiltered (d : DistrictId) (w : Fin 5) (v : Word) (refused : Bool) :
    LocksStand r (s.storeFiltered d w v refused) := by
  have hstored := h.storeIntent (.district d w) v (fun g => IntentPos.noConfusion)
  unfold State.storeFiltered
  dsimp only
  split
  · exact hstored.modDist d _ rfl
  · exact hstored

omit h in
theorem StandsUnlocked.start {d : DistrictId} (h : StandsUnlocked d r s) : StandsUnlocked d r (s.start d) := by
  unfold State.start
  split
  · exact h.enterQueued false
  · exact h.enter .unreachable

theorem LocksStand.setWithdrawn (d : DistrictId) (b : Bool) : LocksStand r (s.setWithdrawn d b) := by
  unfold State.setWithdrawn
  split <;> exact h

theorem LocksStand.intentMove (d : DistrictId) (i : Intent) : LocksStand r (s.intentMove d i) := by
  unfold State.intentMove
  split
  · split
    · next hd => exact (h.unlocked hd).start.stand
    · next hd =>
      split
      · exact (h.unlocked hd).start.stand
      · exact h
    · exact h.setWithdrawn d false
    all_goals exact h
  · split
    -- the ninth row is TRIPPED, withdrawn; the eight before it stop
    case h_9 => exact h.setWithdrawn d true
    case h_1 | h_2 | h_3 | h_4 | h_5 | h_6 | h_7 | h_8 =>
      next hd => exact ((h.unlocked hd).depart.enter .off).stand
    all_goals exact h

theorem LocksStand.reloadWord (d : DistrictId) (w : Fin 5) : LocksStand r (s.reloadWord d w) := by
  unfold State.reloadWord
  dsimp only
  split
  · split
    · have hvalid := h.modDist d (fun x => { x with invalid := false, codeAgrees := true, reload := 0 }) rfl
      split
      · next hd => exact (((h.unlocked hd).modDistSame _ rfl).enter .off).stand
      · exact hvalid
    · exact h.modDist d _ rfl
  · exact h

theorem LocksStand.judgeMapping (d : DistrictId) : LocksStand r (s.judgeMapping d) := by
  unfold State.judgeMapping
  split
  · next hd =>
    have hfree := h.unlocked hd
    have hoff := hfree.enter .off
    split
    · split
      · split
        · exact (hfree.enterQueued false).stand
        · exact hoff.stand
      · exact h
    · split
      · exact (hoff.setIntentOff.mark _).stand
      · exact hoff.stand
  all_goals exact h

theorem LocksStand.changeMapping (d : DistrictId) : LocksStand r (s.changeMapping d) :=
  (h.modDist d (fun x => { x with current := 0 }) rfl).judgeMapping d

theorem LocksStand.writeHostIntent (d : DistrictId) (v : Word) (l : Lanes) :
    LocksStand r (State.writeHostIntent d v l s) :=
  ((((h.readForWrite d).storeFiltered d 0 _ _).intentMove d _).reloadWord d 0).finish _ d

theorem LocksStand.writeDistrictWord (d : DistrictId) (w : Fin 5) (v : Word) (l : Lanes) :
    LocksStand r (State.writeDistrictWord d w v l s) := by
  have hstored := (h.readForWrite d).storeFiltered d w
  unfold State.writeDistrictWord
  dsimp only
  refine LocksStand.finish (LocksStand.reloadWord ?_ d w) _ d
  split
  · exact (hstored _ _).changeMapping d
  · exact hstored _ _

theorem LocksStand.writeFeed (k : FeedId) (x : FeedReg) (v : Word) (l : Lanes) :
    LocksStand r (State.writeFeed k x v l s) := by
  have hstored := h.storeIntent (.feed k x) (clampFeed x (mergeLanes l v ((s.feed k).read x)))
    (fun _ => IntentPos.noConfusion)
  unfold State.writeFeed
  dsimp only
  split
  case h_1 | h_2 => exact hstored.scan
  all_goals exact hstored

theorem LocksStand.writeSetting (x : Setting) (v : Word) (l : Lanes) :
    LocksStand r (State.writeSetting x v l s) :=
  h.storeIntent _ _ (fun g => by cases x <;> cases g <;> decide)

theorem LocksStand.writeAttemptLimit (v : Word) (l : Lanes) : LocksStand r (State.writeAttemptLimit v l s) :=
  h.of_same rfl rfl (fun d => by rw [State.writeAttemptLimit, State.capAttempts, State.dist_tabulate]; rfl)
    (fun _ hc => hc) (fun _ _ he => he)

theorem LocksStand.restartRing : LocksStand r s.restartRing :=
  have hindexes : LocksStand r ((s.modRing (fun x => { x with producer := 0 })).modControl
      (fun c => { c with consumerIndex := 0 })) :=
    h.of_same rfl rfl (fun _ => rfl) (fun _ hc => hc) (fun _ _ he => he)
  hindexes.mark _

theorem LocksStand.writeRingSetting (x : RingReg) (v : Word) (l : Lanes) :
    LocksStand r (State.writeRingSetting x v l s) := by
  have hstored (w : Word) := h.storeIntent (.control (ringReg x)) w (fun g => by cases x <;> cases g <;> decide)
  unfold State.writeRingSetting
  dsimp only
  split
  · exact hstored _
  · exact (hstored _).restartRing

theorem LocksStand.writeConsumer (v : Word) (l : Lanes) : LocksStand r (State.writeConsumer v l s) :=
  h.storeIntent _ _ (fun g => by cases g <;> decide)

/-! ### Commands and actions (R17, R27, R104, R149 to R152) -/

/-- A layout reset puts no LOCKED district elsewhere and none into LOCKED (R27). -/
theorem LocksStand.layoutReset : LocksStand r s.layoutReset := by
  have hstate (d : DistrictId) : (s.layoutReset.dist d).state = (s.dist d).state.rested := by
    obtain ⟨v, agrees, hrest⟩ := (s.dist d).rest.restingIntent_eq
    rw [dist_layoutReset, hrest]
    rfl
  have hrested (st : DistrictState) : st.rested = .locked ↔ st = .locked := by cases st <;> decide
  obtain ⟨contexts, marks, slots, ring, engines, feeds, hreset⟩ := s.layoutReset_eq
  exact h.trans ⟨by rw [hreset], by rw [hreset], fun _ =>
    ⟨(restartAgrees_layoutReset s).lockedApart, fun d => by rw [hstate, hrested]⟩⟩

theorem LocksStand.clearLockout (d : DistrictId) : LocksStand r (State.clearLockout d s) := by
  refine h.claim d ?_
  unfold State.clearLockoutAt
  split
  · next hd => exact (((h.unlocked hd).enter .off).modDistSame _ rfl).stand
  · exact h

theorem LocksStand.clearFlagsAt (d : DistrictId) : LocksStand r (State.clearFlagsAt d s) :=
  h.claim d (h.modDist d _ rfl)

theorem LocksStand.clearAllLockouts : LocksStand r s.clearAllLockouts := by
  have hcleared := h.inFreeOrder s.clearable (fun d _ ht => ht.clearLockout d)
  unfold State.clearAllLockouts
  exact hcleared

/-! ### The access path (R123 to R132, R164, R165) -/

theorem LocksStand.readFlags (d : DistrictId) (l : Lanes) : LocksStand r (State.readFlags d l s) :=
  LocksStand.modDist (s := s.returnWord l _) h d District.clearFlags rfl

theorem LocksStand.checkRead (p : IntentPos) : LocksStand r (s.checkRead p) := by
  unfold State.checkRead
  split
  · split
    · exact h.raiseCheck _
    · exact h
  · exact h

theorem LocksStand.dropAccess : LocksStand r s.dropAccess := by
  unfold State.dropAccess
  split
  · split <;> exact h
  all_goals exact h

theorem LocksStand.endAccess : LocksStand r s.endAccess := by
  unfold State.endAccess
  split
  case h_3 => exact h.dropAccess
  all_goals exact h

theorem LocksStand.wholeAccess (x : Request) {taken : State → State} (ht : LocksStand r (taken s)) :
    LocksStand r (s.wholeAccess x taken) := by
  unfold State.wholeAccess
  split
  · exact ht
  · exact h
  all_goals split <;> exact h

theorem LocksStand.hostRead (p : IntentPos) (l : Lanes) : LocksStand r (State.hostRead p l s) := by
  have hchecked := h.checkRead p
  unfold State.hostRead
  dsimp only
  split
  · exact hchecked
  · exact hchecked.wholeAccess _ hchecked

theorem LocksStand.startCorrection : LocksStand r s.startCorrection := by
  unfold State.startCorrection
  split
  · split
    · split
      · exact h.raiseCheck _
      · exact h
    · exact h
  · exact h

theorem LocksStand.startRing : LocksStand r s.startRing := by
  unfold State.startRing
  split
  · split
    · exact h
    · split <;> exact h
  · exact h

theorem LocksStand.ringProgress : LocksStand r s.ringProgress := by
  unfold State.ringProgress
  split
  · split
    · exact h
    · obtain ⟨ring, slots, haccept⟩ := State.acceptRecord_eq (s.modRing (fun x =>
        { x with producer := (x.producer + 1) % s.control.capacity, records := x.records.drop 1, progress := .none }))
      rw [State.advanceProducer, haccept]
      exact h
  · exact h

/-! ### Resets and time (R26, R103, R106, R134) -/

theorem LocksStand.holdReset : LocksStand r s.holdReset := by
  have hcut : LocksStand r s.cutOff := by
    unfold State.cutOff
    split <;> exact h
  exact hcut

theorem LocksStand.tick : LocksStand r s.tick := by
  refine h.of_same rfl rfl (fun d => ?_) (fun _ hc => hc) (fun e d hd => ?_)
  · have hd : s.tick.dist d = (s.dist d).tick := get_tabulate _ d
    rw [hd]
    rfl
  · have he : s.tick.engine e = (s.engine e).tick := get_tabulate _ e
    rw [he] at hd
    exact hd

end

end Sys2Proof.Machine
end

section
/-! SUPPORT. What a lock claim does to the districts in LOCKED, and a write of the lock set to their agreement with it
(R143, R153 to R155). -/

namespace Sys2Proof.Machine

open Sys2Proof

/-! ### One lock claim -/

/-- The state in which a lock claim at d takes its effect: after the check error, if there is one (R154). -/
def State.lockChecked (s : State) (d : DistrictId) : State := if s.checkFails d then s.checkError d else s

theorem State.lockClaim_eq (s : State) (d : DistrictId) (f : State → State) :
    s.lockClaim d f = s.finish d (f (s.lockChecked d)) := rfl

theorem locksStand_lockChecked (s : State) (d : DistrictId) : LocksStand s (s.lockChecked d) := by
  unfold State.lockChecked
  split
  · exact (LocksStand.refl s).checkError d
  · exact .refl s

theorem RestartAgrees.lockChecked {s : State} (ha : RestartAgrees s) (d : DistrictId) :
    RestartAgrees (s.lockChecked d) := by
  unfold State.lockChecked
  split
  · exact ha.checkError d
  · exact ha

/-- An operation that touches at most district d, and leaves it LOCKED exactly when b says. -/
def Locks (d : DistrictId) (b : Bool) (s t : State) : Prop :=
  ((t.dist d).state = .locked ↔ b = true) ∧ ∀ c, c ≠ d → (t.dist c).state = (s.dist c).state

theorem locks_enterLocked (s : State) (d : DistrictId) : Locks d true s (s.enterLocked d) := by
  have hentered : Locks d true s ((s.depart d).enter d .locked) :=
    ⟨by simp, fun c hc => by rw [State.dist_enter_other _ d c _ hc, s.dist_depart]⟩
  unfold State.enterLocked
  dsimp only
  split
  · obtain ⟨hd, hother⟩ := hentered
    refine ⟨?_, fun c hc => ?_⟩
    · rwa [State.dist_mark, State.dist_setIntentOff_same]
    · rw [State.dist_mark, ← hother c hc]
      exact congrArg District.state (State.dist_modDist_other _ d _ c hc)
  · exact hentered

theorem locks_exitLocked (s : State) (d : DistrictId) : Locks d false s (s.exitLocked d) := by
  have hentered (st : DistrictState) (hst : st ≠ .locked) : Locks d false s (s.enter d st) :=
    ⟨by simp [hst], fun c hc => by rw [s.dist_enter_other d c st hc]⟩
  unfold State.exitLocked
  split
  · next hd => exact ⟨iff_of_false hd (by decide), fun _ _ => rfl⟩
  · split
    · exact hentered .checkHold (by decide)
    · split
      · exact hentered .unreachable (by decide)
      · exact hentered .off (by decide)

section
variable {s : State} (ha : RestartAgrees s)
include ha

theorem RestartAgrees.locked_iff {t : State} (h : LocksStand s t) (c : DistrictId) :
    (t.dist c).state = .locked ↔ (s.dist c).state = .locked := by
  obtain ⟨-, -, hlocked⟩ := h
  exact (hlocked ha.lockedApart).2 c

/-- After a lock claim at d only d's place in LOCKED has changed: the check error before its effect and the
notices and scan after it lock and unlock nothing. -/
theorem RestartAgrees.locked_lockClaim {d : DistrictId} {b : Bool} {f : State → State}
    (hf : ∀ t, Locks d b t (f t)) (hagrees : ∀ t, RestartAgrees t → RestartAgrees (f t)) (c : DistrictId) :
    ((s.lockClaim d f).dist c).state = .locked ↔ if c = d then b = true else (s.dist c).state = .locked := by
  obtain ⟨hd, hother⟩ := hf (s.lockChecked d)
  rw [s.lockClaim_eq, (hagrees _ (ha.lockChecked d)).locked_iff ((LocksStand.refl _).finish s d) c]
  split
  · next hc => rwa [hc]
  · next hc => rw [hother c hc, ha.locked_iff (locksStand_lockChecked s d)]

theorem RestartAgrees.locked_membershipClaim (g : LockHalf) (stored : Word) (d c : DistrictId) :
    ((State.membershipClaim g stored d s).dist c).state = .locked
      ↔ if c = d then (districtsOf g stored).contains d = true else (s.dist c).state = .locked := by
  unfold State.membershipClaim
  cases (districtsOf g stored).contains d with
  | true => exact ha.locked_lockClaim (locks_enterLocked · d) (fun _ ht => ht.enterLocked d) c
  | false => exact ha.locked_lockClaim (locks_exitLocked · d) (fun _ ht => ht.exitLocked d) c

omit ha in
theorem RestartAgrees.membershipClaim {s : State} (ha : RestartAgrees s) (g : LockHalf) (stored : Word)
    (d : DistrictId) : RestartAgrees (State.membershipClaim g stored d s) := by
  unfold State.membershipClaim
  split
  · exact ha.lockClaim d (fun _ ht => ht.enterLocked d)
  · exact ha.lockClaim d (fun _ ht => ht.exitLocked d)

end

/-- After claims at the districts of a list, each of them is LOCKED exactly when the stored word holds it. -/
theorem RestartAgrees.locked_membershipClaims (g : LockHalf) (stored : Word) (c : DistrictId) (l : List DistrictId) :
    ∀ {s : State}, RestartAgrees s →
      (((l.foldl (fun t d => State.membershipClaim g stored d t) s).dist c).state = .locked
        ↔ if c ∈ l then (districtsOf g stored).contains c = true else (s.dist c).state = .locked) := by
  induction l with
  | nil => intro s _; simp
  | cons d l ih =>
    intro s ha
    rw [List.foldl_cons, ih (ha.membershipClaim g stored d), ha.locked_membershipClaim g stored d c]
    by_cases hcl : c ∈ l
    · simp [hcl]
    · by_cases hcd : c = d
      · subst hcd; simp [hcl]
      · simp [hcl, hcd]

/-! ### The lock set by district -/

theorem lockSet_getLsbD (x : Control) (d : DistrictId) :
    x.lockSet.getLsbD d.val = if inHalf .low d then x.lockSetLow.getLsbD (d.val % 16)
      else x.lockSetHigh.getLsbD (d.val % 16) := by
  have hd := d.isLt
  rw [Control.lockSet, BitVec.getLsbD_append]
  by_cases hlow : d.val < 16
  · simp [inHalf, hlow, Nat.mod_eq_of_lt hlow]
  · have hmod : d.val - 16 = d.val % 16 := by omega
    simp [inHalf, hlow, hmod]

theorem inHalf_high (d : DistrictId) : inHalf .high d = !inHalf .low d := by
  rw [inHalf, inHalf, ← decide_not]
  exact decide_eq_decide.mpr Nat.not_lt.symm

/-- A district of the half reads its bit in the half's word. -/
theorem lockSet_of_inHalf {g : LockHalf} {d : DistrictId} (hg : inHalf g d = true) (x : Control) :
    x.lockSet.getLsbD d.val = (x.read (lockReg g)).getLsbD (d.val % 16) := by
  rw [lockSet_getLsbD]
  cases g with
  | low => rw [if_pos hg]; rfl
  | high =>
    rw [inHalf_high, Bool.not_eq_true'] at hg
    rw [hg]
    rfl

theorem lockSet_store_of_inHalf {g : LockHalf} {d : DistrictId} (hg : inHalf g d = true) (x : Control) (v : Word) :
    (x.store (lockReg g) v).lockSet.getLsbD d.val = v.getLsbD (d.val % 16) := by
  rw [lockSet_of_inHalf hg]
  cases g <;> rfl

theorem lockSet_store_of_notInHalf {g : LockHalf} {d : DistrictId} (hg : inHalf g d = false) (x : Control)
    (v : Word) : (x.store (lockReg g) v).lockSet.getLsbD d.val = x.lockSet.getLsbD d.val := by
  simp only [lockSet_getLsbD]
  cases g with
  | low =>
    rw [hg]
    rfl
  | high =>
    rw [inHalf_high, Bool.not_eq_false'] at hg
    rw [hg]
    rfl

/-! ### A write of the lock set (R143, R153) -/

/-- The claims of a list in a free order are the claims of the list in some order. -/
theorem State.inFreeOrder_foldl {α : Type} (s : State) (l : List α) (f : α → State → State) :
    ∃ (c : Nat) (order : List α), order.Perm l
      ∧ s.inFreeOrder l f = order.foldl (fun t b => f b t) { s with choices := c } := by
  unfold State.inFreeOrder
  split
  · exact ⟨s.choices, l, .refl l, rfl⟩
  · exact ⟨_, _, arrangeFrom_perm _ _ l, rfl⟩

section
variable (s : State) (g : LockHalf) (v : Word) (l : Lanes)

/-- What a write of a half of the lock set stores. -/
def State.lockStored : Word := s.filterLock g (mergeLanes l v (s.control.read (lockReg g)))

/-- The state in which the claims of a lock set write are taken. -/
def State.lockWritten : State :=
  (s.storeIntent (.control (lockReg g)) (s.lockStored g v l)).latchRefusedAll
    (districtsOf g (s.lockStored g v l &&& ~~~(mergeLanes l v (s.control.read (lockReg g)))))

theorem State.writeLock_eq : State.writeLock g v l s = (s.lockWritten g v l).inFreeOrder
    (districtsOf g (s.lockStored g v l ^^^ s.control.read (lockReg g)))
    (State.membershipClaim g (s.lockStored g v l)) := rfl

theorem State.lockWritten_freeze : (s.lockWritten g v l).freeze = s.freeze := by
  rw [State.lockWritten, (latchRefusedAll_eq _ _).1]
  rfl

theorem State.lockWritten_control :
    (s.lockWritten g v l).control = s.control.store (lockReg g) (s.lockStored g v l) := by
  rw [State.lockWritten, (latchRefusedAll_eq _ _).1]
  rfl

theorem State.lockWritten_state (d : DistrictId) : ((s.lockWritten g v l).dist d).state = (s.dist d).state := by
  rw [State.lockWritten, (latchRefusedAll_eq _ _).2]
  rfl

theorem calm_writeLock : Calm (s.lockWritten g v l) (State.writeLock g v l s) := by
  rw [State.writeLock_eq]
  exact calm_inFreeOrder _ _ (fun d _ t => calm_membershipClaim g _ d t) _

theorem State.writeLock_freeze : (State.writeLock g v l s).freeze = s.freeze :=
  (calm_writeLock s g v l).freeze.trans (s.lockWritten_freeze g v l)

theorem State.writeLock_control :
    (State.writeLock g v l s).control = s.control.store (lockReg g) (s.lockStored g v l) :=
  (calm_writeLock s g v l).control.trans (s.lockWritten_control g v l)

variable {s}

/-- Under the freeze a write removes no member (R143). -/
theorem State.lockSet_writeLock_of_freeze (hf : s.freeze = true) (d : DistrictId)
    (hd : s.control.lockSet.getLsbD d.val = true) :
    (State.writeLock g v l s).control.lockSet.getLsbD d.val = true := by
  rw [State.writeLock_control]
  cases hg : inHalf g d with
  | true =>
    rw [lockSet_of_inHalf hg] at hd
    rw [lockSet_store_of_inHalf hg, State.lockStored, State.filterLock, if_pos hf, BitVec.getLsbD_or, hd, Bool.true_or]
  | false => rwa [lockSet_store_of_notInHalf hg]

/-- The changed districts are claimed, and every other keeps its state and its bit. -/
theorem LocksAgree.writeLock (hs : LocksAgree s) (ha : RestartAgrees s) : LocksAgree (State.writeLock g v l s) := by
  intro c
  have hagreed : RestartAgrees (s.lockWritten g v l) :=
    foldl_keeps (P := RestartAgrees) _ _ (fun d _ _ ht => ht.modDist d District.latchRefused rfl) _ (ha.storeIntent _ _)
  obtain ⟨n, order, hperm, hclaims⟩ := (s.lockWritten g v l).inFreeOrder_foldl
    (districtsOf g (s.lockStored g v l ^^^ s.control.read (lockReg g)))
    (State.membershipClaim g (s.lockStored g v l))
  have hstart : RestartAgrees { s.lockWritten g v l with choices := n } := hagreed.of_eq rfl rfl rfl
  have hstate : (State.dist { s.lockWritten g v l with choices := n } c).state = .locked
      ↔ s.control.lockSet.getLsbD c.val = true := by
    rw [← hs c, ← s.lockWritten_state g v l c]
    rfl
  rw [s.writeLock_control g v l, s.writeLock_eq, hclaims, RestartAgrees.locked_membershipClaims _ _ _ _ hstart]
  simp only [hperm.mem_iff, hstate, ← List.contains_iff_mem, contains_districtsOf]
  cases hg : inHalf g c with
  | false =>
    rw [lockSet_store_of_notInHalf hg]
    simp
  | true =>
    rw [lockSet_store_of_inHalf hg, lockSet_of_inHalf hg, BitVec.getLsbD_xor]
    cases (s.lockStored g v l).getLsbD (c.val % 16) <;> cases (s.control.read (lockReg g)).getLsbD (c.val % 16) <;> simp

end

end Sys2Proof.Machine
end

section
/-! PROOF. O56 and O59: under the freeze no step but a full reset takes a district out of the lock set, and every step
keeps LOCKED the districts of the lock set (R143, R153, R156). -/

namespace Sys2Proof.Machine

open Sys2Proof

/-- From s to t the freeze flag stays once set, with every member of the lock set, and the districts in LOCKED still
are those of the lock set. -/
def LocksHeld (s t : State) : Prop :=
  (s.freeze = true → t.freeze = true
      ∧ ∀ d : DistrictId, s.control.lockSet.getLsbD d.val = true → t.control.lockSet.getLsbD d.val = true)
    ∧ (RestartAgrees s → LocksAgree s → LocksAgree t)

theorem LocksStand.held {s t : State} (h : LocksStand s t) : LocksHeld s t := by
  obtain ⟨hfreeze, hset, -⟩ := id h
  refine ⟨fun hf => ⟨hfreeze.trans hf, fun d hd => by rwa [hset]⟩, fun ha hs d => ?_⟩
  rw [ha.locked_iff h, hs d, hset]

/-- An operation that leaves the locks standing, and then one that holds them. -/
theorem LocksStand.andHeld {s t u : State} (h : LocksStand s t) (ha : RestartAgrees s → RestartAgrees t)
    (g : LocksHeld t u) : LocksHeld s u := by
  obtain ⟨hfreeze, hagree⟩ := h.held
  obtain ⟨gfreeze, gagree⟩ := g
  refine ⟨fun hf => ?_, fun hs hl => gagree (ha hs) (hagree hs hl)⟩
  obtain ⟨ht, hset⟩ := hfreeze hf
  obtain ⟨hu, gset⟩ := gfreeze ht
  exact ⟨hu, fun d hd => gset d (hset d hd)⟩

theorem LocksHeld.withAccess {s t : State} (h : LocksHeld s t) (a : Access) : LocksHeld s { t with access := a } := h

/-! ### The lock set, LOCK_FREEZE and what reaches them -/

section
variable (s : State)

theorem locksHeld_writeLock (g : LockHalf) (v : Word) (l : Lanes) : LocksHeld s (State.writeLock g v l s) :=
  ⟨fun hf => ⟨(s.writeLock_freeze g v l).trans hf, State.lockSet_writeLock_of_freeze g v l hf⟩,
    fun ha hs => hs.writeLock g v l ha⟩

theorem locksHeld_lockFreeze : LocksHeld s s.lockFreeze := ⟨fun _ => ⟨rfl, fun _ hd => hd⟩, fun _ hs => hs⟩

/-- A host write to any intent word (R126). -/
theorem locksHeld_takeIntentWrite (p : IntentPos) (v : Word) (l : Lanes) :
    LocksHeld s (State.takeIntentWrite p v l s) := by
  have h := LocksStand.refl s
  cases p with
  | control x =>
    cases x with
    | lockSetLow | lockSetHigh => exact locksHeld_writeLock s _ v l
    | attemptLimit => exact (h.writeAttemptLimit v l).held
    | faultMask => exact (h.storeIntent _ _ (fun g => by cases g <;> decide)).held
    | consumerIndex => exact (h.writeConsumer v l).held
    | ringBaseLow | ringBaseHigh | ringCapacity => exact (h.writeRingSetting _ v l).held
    | gatheringWindow | provingWindow | quietInterval | holdoffBase | drainPeriod => exact (h.writeSetting _ v l).held
  | feed k x => exact (h.writeFeed k x v l).held
  | adjacency j => exact (h.storeIntent _ _ (fun g => IntentPos.noConfusion)).held
  | district d w =>
    unfold State.takeIntentWrite
    dsimp only
    split
    · exact (h.writeHostIntent d v l).held
    · exact (h.writeDistrictWord d w v l).held

theorem locksHeld_command (code : Word) : LocksHeld s (State.command code s) := by
  have h := LocksStand.refl s
  unfold State.command
  split
  · exact h.layoutReset.held
  · split
    · exact h.clearAllLockouts.held
    · split
      · exact locksHeld_lockFreeze s
      · split
        · exact h.held
        · exact LocksStand.held h

theorem locksStand_action (d : DistrictId) (code : Word) : LocksStand s (State.action d code s) := by
  have h := LocksStand.refl s
  unfold State.action
  split
  · exact h.clearLockout d
  · split
    · exact h.clearFlagsAt d
    · exact h

/-! ### The access path (R123 to R132, R165) -/

theorem locksHeld_serve (x : Request) : LocksHeld s (s.serve x) := by
  have h := LocksStand.refl s
  exact State.serve_keeps (fun _ => LocksStand.held h) (LocksStand.held h) (fun d => (h.readFlags d x.lanes).held)
    (locksHeld_command s) (fun d code => (locksStand_action s d code).held) h.held

theorem locksHeld_carryOut (x : Request) : LocksHeld s (s.carryOut x) :=
  State.carryOut_keeps (fun _ => LocksStand.held (LocksStand.refl s))
    (fun p v => locksHeld_takeIntentWrite s p v x.lanes) (fun _ => LocksStand.held (LocksStand.refl s))

theorem locksHeld_seekFace (x : Request) : LocksHeld s (State.seekFace x s) := by
  have h := LocksStand.refl s
  unfold State.seekFace
  split
  · exact LocksStand.andHeld h (fun ha => ha.of_eq rfl rfl rfl)
      (locksHeld_carryOut { s with face := .host, access := .onFace x } x)
  all_goals exact LocksStand.held h

theorem locksHeld_placeAccess (x : Request) : LocksHeld s (s.placeAccess x) := by
  have hchecked : LocksStand s (s.checkRequest x) :=
    State.checkRequest_keeps (LocksStand.refl s).checkRead (LocksStand.refl s)
  refine hchecked.andHeld (fun ha => ha.checkRequest x) ?_
  unfold State.placeAccess
  dsimp only
  split
  · exact locksHeld_seekFace _ x
  · exact (locksHeld_serve _ x).withAccess _

theorem locksHeld_beginAccess (x : Request) : LocksHeld s (State.beginAccess x s) := by
  unfold State.beginAccess
  split
  · exact locksHeld_placeAccess s x
  all_goals exact (LocksStand.refl s).held

theorem locksHeld_wholeAccess (x : Request) {taken : State → State} (ht : LocksHeld s (taken s)) :
    LocksHeld s (s.wholeAccess x taken) := by
  have h := LocksStand.refl s
  unfold State.wholeAccess
  split
  · exact ht
  · exact h.held
  all_goals split <;> exact LocksStand.held h

theorem locksHeld_hostWrite (p : IntentPos) (v : Word) (l : Lanes) {taken : State → State}
    (ht : LocksHeld s (taken s)) : LocksHeld s (State.hostWrite p v l taken s) := locksHeld_wholeAccess s _ ht

theorem locksHeld_releaseFace : LocksHeld s s.releaseFace := by
  have h := LocksStand.refl s
  unfold State.releaseFace
  split
  · exact LocksStand.andHeld h (fun ha => ha.of_eq rfl rfl rfl) (locksHeld_placeAccess { s with face := .idle } _)
  all_goals exact LocksStand.held h

theorem locksHeld_completeCorrection : LocksHeld s s.completeCorrection := by
  unfold State.completeCorrection
  split
  · refine LocksStand.andHeld ?_ (fun ha => ?_) (locksHeld_releaseFace _)
    all_goals unfold State.settleMark
    · split <;> exact LocksStand.refl s
    · split <;> exact ha.of_eq rfl rfl rfl
  all_goals exact (LocksStand.refl s).held

theorem locksHeld_completeRing : LocksHeld s s.completeRing := by
  unfold State.completeRing
  split
  · refine LocksStand.andHeld (LocksStand.ringProgress (s := s.writeMem _ .both _) (LocksStand.refl s))
      (fun ha => RestartAgrees.ringProgress ?_) (locksHeld_releaseFace _)
    exact ha.of_eq rfl rfl rfl
  all_goals exact (LocksStand.refl s).held

theorem locksHeld_running {f : State → State} (hf : LocksHeld s (f s)) : LocksHeld s (s.running f) := by
  unfold State.running
  split
  · exact (LocksStand.refl s).held
  · exact hf

end

/-! ### Every step -/

/-- Every command but a full reset holds the locks. -/
theorem locksHeld_exec {s t : State} (c : Instr) (hc : ∀ pins, c ≠ .fullReset pins) (hx : exec c s = .next t) :
    LocksHeld s t := by
  have h := LocksStand.refl s
  cases c <;> cases hx
  case fullReset pins => exact absurd rfl (hc pins)
  case resetHeld => exact h.holdReset.held
  all_goals refine locksHeld_running s ?_
  case lockFreeze => exact locksHeld_lockFreeze s
  case unknownCommandCode code => exact locksHeld_command s code
  case lockSetWrite g v l => exact locksHeld_hostWrite s _ v l (locksHeld_writeLock s g v l)
  case hostAccessBegin x => exact locksHeld_beginAccess s x
  case correctionWordComplete => exact locksHeld_completeCorrection s
  case ringWordComplete => exact locksHeld_completeRing s
  case hostIntentWrite d v l => exact locksHeld_hostWrite s _ v l (h.writeHostIntent d v l).held
  case districtWordWrite d w v l => exact locksHeld_hostWrite s _ v l (h.writeDistrictWord d w.succ v l).held
  case adjacencyWrite j v l =>
    exact locksHeld_hostWrite s _ v l (h.storeIntent _ _ (fun g => IntentPos.noConfusion)).held
  case feedSettingWrite k x v l => exact locksHeld_hostWrite s _ v l (h.writeFeed k x v l).held
  case controlSettingWrite x v l => exact locksHeld_hostWrite s _ v l (h.writeSetting x v l).held
  case attemptLimitWrite v l => exact locksHeld_hostWrite s _ v l (h.writeAttemptLimit v l).held
  case faultMaskWrite v l =>
    exact locksHeld_hostWrite s _ v l (h.storeIntent _ _ (fun g => by cases g <;> decide)).held
  case ringSettingWrite x v l => exact locksHeld_hostWrite s _ v l (h.writeRingSetting x v l).held
  case consumerIndexWrite v l => exact locksHeld_hostWrite s _ v l (h.writeConsumer v l).held
  all_goals refine LocksStand.held ?_
  case layoutReset => exact h.layoutReset
  case clearAllLockouts => exact h.clearAllLockouts
  case clearLockout d => exact h.clearLockout d
  case clearFlags d => exact h.clearFlagsAt d
  case flagsRead d l => exact h.readFlags d l
  case lastResetCauseRead l => exact h
  case hostIntentRead p l => exact h.hostRead p l
  case hostAccessEnd => exact h.endAccess
  case accessDrop => exact h.dropAccess
  case correctionWordStart => exact h.startCorrection
  case ringWordStart => exact h.startRing
  case holdAssert => exact h.assertHold
  case holdRelease => exact h.releaseHold
  case boosterLineLow k => exact h.lineLow k
  case boosterLineHigh k => exact h.lineHigh k
  case settleExpiry k => exact h.settleExpires k
  case drainExpiry => exact h.drainExpires
  case holdoffExpiry d => exact h.holdoffExpires d
  case provingExpiry d => exact h.provingExpires d
  case quietExpiry d => exact h.quietExpires d
  case gatheringTimerExpiry n => exact h.gatheringExpires n
  case stepTimerExpiry e => exact h.stepExpires e
  case poll => exact h.beginExchange
  case report x => exact h.endExchange (fun y _ ht => ht.judgeReport x y)
  case missTimeout | missGap => exact h.endExchange (fun y _ ht => ht.missNode y.node)

theorem locksHeld_tick (s : State) : LocksHeld s (s.running State.tick) :=
  locksHeld_running s (LocksStand.refl s).tick.held

/-- No district is LOCKED after a full reset, and the lock set is empty (R103). -/
theorem locksAgree_afterFullReset (pins : Pins) (mem : List Host.Cell) (choices : Nat) (pending : List Instr) :
    LocksAgree (State.afterFullReset pins mem choices pending) := fun d => by
  refine iff_of_false ?_ ?_
  · rw [dist_afterFullReset]
    decide
  · simp [State.afterFullReset, Control.reset, Control.lockSet]

/-- Settles O56: the command at the front of the queue is no full reset, or a microsecond of time passes. -/
theorem stepUnderFreezeKeepsLockedSet : Obligations.StepUnderFreezeKeepsLockedSet := by
  intro s t hfreeze hfront hstep
  unfold step at hstep
  split at hstep
  · next c rest hpending =>
    obtain ⟨hheld, -⟩ := locksHeld_exec c (fun pins hc => hfront pins rest (hc ▸ hpending)) hstep
    exact hheld hfreeze
  · cases hstep
    exact (locksHeld_tick s).1 hfreeze

/-- Settles O59: a full reset leaves no lock, and every other step holds the locks. -/
theorem stepKeepsLockedDistrictsInLockSet : Obligations.StepKeepsLockedDistrictsInLockSet := by
  intro s t hagrees hlocks hstep
  unfold step at hstep
  split at hstep
  · next c rest _ =>
    by_cases hc : ∃ pins, c = .fullReset pins
    · obtain ⟨pins, rfl⟩ := hc
      cases hstep
      exact locksAgree_afterFullReset pins _ _ _
    · obtain ⟨-, hkept⟩ := locksHeld_exec c (fun pins hp => hc ⟨pins, hp⟩) hstep
      exact hkept (hagrees.of_eq rfl rfl rfl) hlocks
  · cases hstep
    exact (locksHeld_tick s).2 hagrees hlocks

end Sys2Proof.Machine
end

section
/-! PROOF. O52: FAULT is asserted exactly while a condition holds whose flag in the mask is clear (R159). -/

namespace Sys2Proof.Machine

open Sys2Proof

section
variable (s : State)

/-- A test of every member of a table finds the members that pass it. -/
theorem any_indices_iff {n : Nat} (P : Fin n → Bool) : (indices n).any P = true ↔ ∃ i, P i = true := by
  rw [List.any_eq_true]
  exact exists_congr (fun i => and_iff_right (List.mem_finRange i))

theorem State.lockoutHolds_iff : s.lockoutHolds = true ↔ ∃ d, (s.dist d).state = .lockout := by
  simp only [State.lockoutHolds, any_indices_iff, beq_iff_eq]

theorem State.checkHolds_iff : s.checkHolds = true ↔ ∃ d, (s.dist d).invalid = true := any_indices_iff _

theorem State.feedDownHolds_iff : s.feedDownHolds = true ↔ ∃ k, (s.feed k).state = .down := by
  simp only [State.feedDownHolds, any_indices_iff, beq_iff_eq]

theorem State.nodeLostHolds_iff : s.nodeLostHolds = true ↔ ∃ k, (s.node k).state = .lost := by
  simp only [State.nodeLostHolds, any_indices_iff, beq_iff_eq]

theorem State.ringBlockedHolds_iff : s.ringBlockedHolds = true ↔ s.ring.records ≠ []
    ∧ (s.ring.producer + 1) % s.control.capacity = s.control.consumer := by
  simp [State.ringBlockedHolds, State.ringFull]

end

/-- Settles O52: each condition by the members it ranges over. -/
theorem faultFollowsFiveConditionsAndMask : Obligations.FaultFollowsFiveConditionsAndMask := by
  intro s hr
  simp only [State.faultAsserted, hr, Bool.not_false, Bool.true_and, Bool.or_eq_true, Bool.and_eq_true,
    Bool.not_eq_true', s.lockoutHolds_iff, s.checkHolds_iff, s.feedDownHolds_iff, s.nodeLostHolds_iff,
    s.ringBlockedHolds_iff, or_assoc, and_assoc]

end Sys2Proof.Machine
end

section
/-! PROOF. O28: a lock set write that changes one district takes it to LOCKED, or out of it by R25 (R154, R155). -/

namespace Sys2Proof.Machine

open Sys2Proof

/-- What entering and leaving LOCKED have in common: no other context and no slot changes, and of d the attempt
count, the polarity, the flags and the context-invalid flag stand. -/
structure LockMoves (d : DistrictId) (s t : State) : Prop where
  others : ∀ e, e ≠ d → t.dist e = s.dist e
  slots : t.slots = s.slots
  attempts : (t.dist d).attempts = (s.dist d).attempts
  polarity : (t.dist d).polarity = (s.dist d).polarity
  flags : (t.dist d).flags = (s.dist d).flags
  invalid : (t.dist d).invalid = (s.dist d).invalid

theorem LockMoves.refl (d : DistrictId) (s : State) : LockMoves d s s := ⟨fun _ _ => rfl, rfl, rfl, rfl, rfl, rfl⟩

section
variable {d : DistrictId} {r s : State} (h : LockMoves d r s)
include h

theorem LockMoves.modDist (f : District → District) (hattempts : (f (s.dist d)).attempts = (s.dist d).attempts)
    (hpolarity : (f (s.dist d)).polarity = (s.dist d).polarity) (hflags : (f (s.dist d)).flags = (s.dist d).flags)
    (hinvalid : (f (s.dist d)).invalid = (s.dist d).invalid) : LockMoves d r (s.modDist d f) where
  others e he := (s.dist_modDist_other d f e he).trans (h.others e he)
  slots := h.slots
  attempts := by rw [s.dist_modDist_same, hattempts, h.attempts]
  polarity := by rw [s.dist_modDist_same, hpolarity, h.polarity]
  flags := by rw [s.dist_modDist_same, hflags, h.flags]
  invalid := by rw [s.dist_modDist_same, hinvalid, h.invalid]

theorem LockMoves.enter (st : DistrictState) : LockMoves d r (s.enter d st) := h.modDist _ rfl rfl rfl rfl

theorem LockMoves.of_same {t : State} (hdist : ∀ e, t.dist e = s.dist e) (hslots : t.slots = s.slots) :
    LockMoves d r t where
  others e he := (hdist e).trans (h.others e he)
  slots := hslots.trans h.slots
  attempts := by rw [hdist, h.attempts]
  polarity := by rw [hdist, h.polarity]
  flags := by rw [hdist, h.flags]
  invalid := by rw [hdist, h.invalid]

end

@[simp] theorem State.slots_mark (s : State) (p : IntentPos) : (s.mark p).slots = s.slots := by
  unfold State.mark
  split <;> rfl

/-- Only ON and ON_MANUAL are set to OFF on the way into LOCKED (R154). -/
theorem State.enterLocked_of_off {s : State} {d : DistrictId} (hi : (s.dist d).intent = .off) :
    s.enterLocked d = (s.depart d).enter d .locked := by
  rw [State.enterLocked, hi]
  rfl

theorem State.enterLocked_of_on {s : State} {d : DistrictId} (hi : (s.dist d).intent ≠ .off) :
    s.enterLocked d = (((s.depart d).enter d .locked).setIntentOff d).mark (.district d 0) := by
  have henergising : (s.dist d).intent.energising = true := by
    cases hx : (s.dist d).intent with
    | off => exact absurd hx hi
    | on | onManual => rfl
  rw [State.enterLocked, if_pos henergising]

section
variable (s : State) (d : DistrictId)

theorem lockMoves_enterLocked : LockMoves d s (s.enterLocked d) := by
  have hentered : LockMoves d s ((s.depart d).enter d .locked) :=
    ((LockMoves.refl d s).of_same (s.dist_depart d) (s.slots_depart d)).enter .locked
  by_cases hi : (s.dist d).intent = .off
  · rw [State.enterLocked_of_off hi]
    exact hentered
  · rw [State.enterLocked_of_on hi]
    exact (hentered.modDist _ rfl rfl rfl rfl).of_same (State.dist_mark _ _) (State.slots_mark _ _)

theorem lockMoves_exitLocked : LockMoves d s (s.exitLocked d) := by
  have h := LockMoves.refl d s
  unfold State.exitLocked
  split
  · exact h
  · split
    · exact h.enter .checkHold
    · split
      · exact h.enter .unreachable
      · exact h.enter .off

/-- The district's own entry (R154). -/
theorem enterLocked_entry : ((s.enterLocked d).dist d).state = .locked ∧ ((s.enterLocked d).dist d).level = 0
    ∧ ((s.enterLocked d).dist d).mark = false ∧ ((s.enterLocked d).dist d).intent = .off
    ∧ (s.enterLocked d).queue = s.queue.erase d := by
  by_cases hi : (s.dist d).intent = .off
  · rw [State.enterLocked_of_off hi, State.dist_enter_same, s.dist_depart]
    exact ⟨rfl, rfl, rfl, hi, s.queue_depart d⟩
  · rw [State.enterLocked_of_on hi, State.dist_mark, State.dist_setIntentOff_same, State.dist_enter_same, s.dist_depart,
      State.queue_mark]
    exact ⟨rfl, rfl, rfl, District.intent_setWord_clear _, s.queue_depart d⟩

/-- Word 0 is marked on the way into LOCKED exactly if a valid context's intent is set to OFF. -/
theorem mem_corrections_enterLocked (p : IntentPos) : p ∈ (s.enterLocked d).corrections
    ↔ p ∈ s.corrections ∨ p = .district d 0 ∧ (s.dist d).invalid = false ∧ (s.dist d).intent ≠ .off := by
  have hentered : ((s.depart d).enter d .locked).corrections = s.corrections := by
    rw [s.depart_eq]
    rfl
  by_cases hi : (s.dist d).intent = .off
  · rw [State.enterLocked_of_off hi, hentered]
    simp [hi]
  · have hinvalid : State.ofInvalid (((s.depart d).enter d .locked).setIntentOff d) (.district d 0)
        = (s.dist d).invalid := by
      rw [State.ofInvalid, State.dist_setIntentOff_same, State.dist_enter_same, s.dist_depart]
      rfl
    have hoff : (((s.depart d).enter d .locked).setIntentOff d).corrections = s.corrections := hentered
    rw [State.enterLocked_of_on hi, State.mem_corrections_mark, hinvalid, hoff]
    simp [hi]

variable {s d} (hl : (s.dist d).state = .locked)
include hl

/-- R25: CHECK_HOLD first, then UNREACHABLE, then OFF; the queue stands. -/
theorem exitLocked_of_locked : (s.exitLocked d).queue = s.queue ∧ ((s.exitLocked d).dist d).state =
    if (s.dist d).invalid then .checkHold else if (s.dist d).node.isSome && !s.nodePresent d then .unreachable
      else .off := by
  rw [State.exitLocked, if_neg (not_not.mpr hl)]
  split
  · exact ⟨rfl, by simp⟩
  · split <;> exact ⟨rfl, by simp⟩

end

/-- A lock claim whose context passes its check is its effect and the end of the claim. -/
theorem State.membershipClaim_of_passes {s : State} {d : DistrictId} (hp : s.passes d) (g : LockHalf) (stored : Word) :
    State.membershipClaim g stored d s =
      s.finish d (if d ∈ districtsOf g stored then s.enterLocked d else s.exitLocked d) := by
  have hchecked : s.checkFails d = false := hp
  simp only [State.membershipClaim, State.lockClaim, hchecked, Bool.false_eq_true, if_false, List.contains_iff_mem]
  split <;> rfl

section
variable (s : State) (g : LockHalf) (v : Word) (l : Lanes)

theorem State.lockWritten_dist (d : DistrictId) : ∃ b, (s.lockWritten g v l).dist d =
    { s.dist d with flags := { (s.dist d).flags with refused := b } } :=
  ⟨_, (latchRefusedAll_eq _ _).2 d⟩

/-- A lock set write changes, before its claims, no queue, engine, slot or node. -/
theorem State.lockWritten_same : (s.lockWritten g v l).slots = s.slots ∧ (s.lockWritten g v l).queue = s.queue
    ∧ (s.lockWritten g v l).engines = s.engines ∧ (s.lockWritten g v l).nodes = s.nodes := by
  rw [State.lockWritten, (latchRefusedAll_eq _ _).1]
  exact ⟨rfl, rfl, rfl, rfl⟩

/-- No mark of a district word goes with the mark of the half written. -/
theorem State.mem_corrections_lockWritten (d : DistrictId) (w : Fin 5) :
    IntentPos.district d w ∈ (s.lockWritten g v l).corrections ↔ IntentPos.district d w ∈ s.corrections := by
  have hmarks : (s.lockWritten g v l).corrections =
      (s.storeIntent (.control (lockReg g)) (s.lockStored g v l)).corrections := by
    rw [State.lockWritten, (latchRefusedAll_eq _ _).1]
  rw [hmarks]
  exact (State.mem_unmark (s.setCopy _ _) _ _).trans (and_iff_left IntentPos.noConfusion)

end

/-- Settles O28: u is the state the claims of the write are taken in, t that after the one claim's effect. -/
theorem lockSetWriteMovesChangedDistrict : Obligations.LockSetWriteMovesChangedDistrict := by
  intro s g v l d old stored hf hp hold hstored hone
  have hval : stored = s.lockStored g v l := by rw [hstored, hold]; rfl
  subst hval hold
  clear hstored
  obtain ⟨b, hdist⟩ := s.lockWritten_dist g v l d
  obtain ⟨hslots, hqueue, hengines, hnodes⟩ := s.lockWritten_same g v l
  have hcontrol := s.lockWritten_control g v l
  have hmarks := s.mem_corrections_lockWritten g v l d 0
  have hwrite := s.writeLock_eq g v l
  generalize s.lockWritten g v l = u at *
  have hpasses : u.passes d := by
    rw [State.passes, State.checkFails, hdist]
    exact hp
  have hexec := exec_lockSetWrite_of_faceFree hf g v l
  rw [hwrite, hone, State.inFreeOrder_one, State.membershipClaim_of_passes hpasses] at hexec
  refine ⟨u, _, hexec, hcontrol, hslots, by rw [hdist], hqueue, hengines, ?_⟩
  have hmoves : LockMoves d u
      (if d ∈ districtsOf g (s.lockStored g v l) then u.enterLocked d else u.exitLocked d) := by
    split
    · exact lockMoves_enterLocked u d
    · exact lockMoves_exitLocked u d
  refine ⟨hmoves.others, hmoves.slots.trans hslots, by rw [hmoves.attempts, hdist], by rw [hmoves.polarity, hdist],
    hmoves.flags, by rw [hmoves.invalid, hdist], fun hd => ?_, fun hd hl => ?_⟩
  · rw [if_pos hd, mem_corrections_enterLocked, hmarks, hdist]
    obtain ⟨hstate, hlevel, hmark, hintent, hleft⟩ := enterLocked_entry u d
    refine ⟨hstate, hlevel, hmark, hintent, hleft.trans (by rw [hqueue]), fun hv hi => .inr ⟨rfl, hv, hi⟩,
      fun hno => ?_⟩
    refine or_iff_left (fun ⟨_, hv, hi⟩ => hno.elim (fun hinv => ?_) hi)
    rw [hv] at hinv
    cases hinv
  · rw [if_neg hd]
    obtain ⟨hstands, hstate⟩ := exitLocked_of_locked (s := u) (d := d) (by rw [hdist]; exact hl)
    have hnode : (u.dist d).node = (s.dist d).node := by rw [hdist]; rfl
    have hpresent : u.nodePresent d = s.nodePresent d := by
      simp only [State.nodePresent, hnode, State.node, hnodes]
    have hinvalid : (u.dist d).invalid = (s.dist d).invalid := by rw [hdist]
    rw [hnode, hpresent, hinvalid] at hstate
    rw [hstate]
    refine ⟨hstands.trans hqueue, fun hv => by rw [if_pos hv], fun hv k hk hlost => ?_, fun hv hk => ?_⟩
    · simp [hv, State.nodePresent, hk, hlost]
    · rcases hk with hk | ⟨k, hk, hup⟩
      · simp [hv, hk]
      · simp [hv, State.nodePresent, hk, hup]

end Sys2Proof.Machine
end

section
/-! SUPPORT. Return claims while HOLD is asserted: no scan follows them, so nothing ramps or flips again and an IDLE
engine stays IDLE (R157). -/

namespace Sys2Proof.Machine

open Sys2Proof

/-! ### The end of a claim under HOLD -/

theorem State.finish_of_hold (before : State) (d : DistrictId) {s : State} (hs : s.hold = true) :
    before.finish d s = before.notify d s := by
  have hheld : (before.notify d s).hold = true := (calm_notify before d s).hold.trans hs
  rw [State.finish, State.rescan, State.scan_of_hold _ hheld, ite_self]

/-- A district that ramps or flips. -/
abbrev State.Moving (s : State) (d : DistrictId) : Prop :=
  (s.dist d).state = .ramping ∨ (s.dist d).state = .reversing

theorem State.returnClaim_of_not_moving {s : State} {d : DistrictId} (h : ¬s.Moving d) :
    State.returnClaim d s = s := if_neg h

/-- The claim of a moving district under HOLD: the check error or the return, and the notice. -/
theorem State.returnClaim_of_hold {s : State} {d : DistrictId} (hs : s.hold = true) (h : s.Moving d) :
    State.returnClaim d s = s.notify d (if s.checkFails d then s.checkError d else s.returnEffect d) := by
  have hchecked : (s.checkError d).hold = true := (calm_checkError s d).hold.trans hs
  have hreturned : (s.returnEffect d).hold = true := (calm_returnEffect s d).hold.trans hs
  rw [State.returnClaim, if_pos h, State.claim, State.raiseCheck, s.finish_of_hold d hchecked,
    s.finish_of_hold d hreturned]
  split <;> rfl

/-- What the check error and the return give, and closings and releases keep, a return claim under HOLD gives. -/
theorem State.returnClaim_keeps_of_hold {P : State → Prop} (hclose : ∀ s n, P s → P (s.closeSlot n))
    (hrelease : ∀ s c, P s → (s.dist c).state = .gated → P (s.releaseSuspect c)) {s : State} {d : DistrictId}
    (hs : s.hold = true) (hstill : ¬s.Moving d → P s) (hcheck : s.Moving d → P (s.checkError d))
    (hreturn : s.Moving d → P (s.returnEffect d)) : P (State.returnClaim d s) := by
  by_cases hd : s.Moving d
  · rw [State.returnClaim_of_hold hs hd]
    refine State.notify_keeps hclose hrelease s d _ ?_
    split
    · exact hcheck hd
    · exact hreturn hd
  · rw [State.returnClaim_of_not_moving hd]
    exact hstill hd

/-- A property that each return claim under HOLD keeps is kept by several. -/
theorem State.returnClaims_keep_of_hold {P : State → Prop}
    (hclaim : ∀ d s, s.hold = true → P s → P (State.returnClaim d s)) (l : List DistrictId) {s : State}
    (hs : s.hold = true) (h : P s) : (l.foldl (fun t d => State.returnClaim d t) s).hold = true
      ∧ P (l.foldl (fun t d => State.returnClaim d t) s) :=
  foldl_keeps (P := fun t : State => t.hold = true ∧ P t) _ l
    (fun d _ t ⟨ht, hp⟩ => ⟨(calm_returnClaim d t).hold.trans ht, hclaim d t ht hp⟩) s ⟨hs, h⟩

/-! ### One return -/

section
variable {s : State} {d : DistrictId}

@[simp] theorem State.dist_freeEngineOf (s : State) (d e : DistrictId) : (s.freeEngineOf d).dist e = s.dist e := by
  unfold State.freeEngineOf
  split <;> rfl

@[simp] theorem State.queue_freeEngineOf (s : State) (d : DistrictId) : (s.freeEngineOf d).queue = s.queue := by
  unfold State.freeEngineOf
  split <;> rfl

@[simp] theorem State.slots_freeEngineOf (s : State) (d : DistrictId) : (s.freeEngineOf d).slots = s.slots := by
  unfold State.freeEngineOf
  split <;> rfl

theorem State.returnEffect_eq_of_ramping (h : (s.dist d).state = .ramping) :
    s.returnEffect d = (s.freeEngineOf d).returnToQueue d := by rw [State.returnEffect, h]

/-- A RAMPING district goes back to its place with its mark as it stands, whichever engine it gives up. -/
theorem State.returnEffect_place_of_ramping (h : (s.dist d).state = .ramping) :
    ∃ before after : List DistrictId, ReturnPlace s d before after
      ∧ (s.returnEffect d).queue = before ++ d :: after
      ∧ (s.returnEffect d).dist d = (s.dist d).enter s.control .queued
      ∧ (∀ f, f ≠ d → (s.returnEffect d).dist f = s.dist f)
      ∧ (s.returnEffect d).slots = s.slots ∧ EngineFreed s (s.returnEffect d) d := by
  obtain ⟨before, after, hplace, hreturn⟩ := (s.freeEngineOf d).returnToQueue_place d
  have hcontrol : (s.freeEngineOf d).control = s.control := (calm_freeEngineOf s d).control
  have hsame : ReturnPlace s d before after := hplace.congr (by rw [s.queue_freeEngineOf]) (fun q => by
    rw [s.dist_freeEngineOf])
  rw [State.returnEffect_eq_of_ramping h]
  refine ⟨before, after, hsame, by rw [hreturn], ?_, fun f hf => ?_, ?_,
    (engineFreed_freeEngineOf s d).congr rfl rfl rfl rfl⟩
  · rw [← hcontrol, ← s.dist_freeEngineOf d d]
    exact State.dist_enter_same _ d .queued
  · rw [← s.dist_freeEngineOf d f]
    exact State.dist_enter_other _ d f .queued hf
  · exact s.slots_freeEngineOf d

/-- What a return leaves of d's context, from either state. -/
structure ReturnedContext (x y : District) : Prop where
  state : y.state = .queued
  level : y.level = 0
  markRamping : x.state = .ramping → y.mark = x.mark
  markReversing : x.state = .reversing → y.mark = true
  attempts : y.attempts = x.attempts
  polarity : y.polarity = x.polarity
  flags : y.flags = x.flags
  words : y.words = x.words

theorem State.returnedContext (h : s.Moving d) :
    ReturnedContext (s.dist d) ((s.returnEffect d).dist d) ∧ d ∈ (s.returnEffect d).queue := by
  rcases h with h | h
  · obtain ⟨before, after, -, hqueue, hdist, -⟩ := State.returnEffect_place_of_ramping h
    rw [hdist, hqueue]
    have hnot : (s.dist d).state ≠ .reversing := by rw [h]; decide
    exact ⟨⟨rfl, rfl, fun _ => rfl, fun hr => absurd hr hnot, rfl, rfl, rfl, rfl⟩, by simp⟩
  · obtain ⟨before, after, -, heffect⟩ := State.returnEffect_of_reversing h
    have hnot : (s.dist d).state ≠ .ramping := by rw [h]; decide
    have hdist : (s.returnEffect d).dist d = _ :=
      (congrArg (fun t : State => t.dist d) heffect).trans (get_put_same s.districts d _)
    rw [hdist, heffect]
    exact ⟨⟨rfl, rfl, fun hr => absurd hr hnot, fun _ => rfl, rfl, rfl, rfl, rfl⟩, by simp⟩

theorem ReturnedContext.incident {x y : District} (h : ReturnedContext x y) (n : Option SlotId) (r : Role) :
    ReturnedContext x { y with incidentSlot := n, role := r } := { h with }

/-- An IDLE engine is none that a district gives up. -/
theorem EngineFreed.idle {t : State} (h : EngineFreed s t d) {e : EngineId} (he : (s.engine e).district = .none) :
    t.engine e = s.engine e := by
  obtain ⟨hnone, hsome⟩ := h
  cases hf : s.engineOf d with
  | none => rw [State.engine, State.engine, (hnone hf).1]
  | some f =>
    obtain ⟨-, hothers, -⟩ := hsome f hf
    refine hothers e (fun hef => ?_)
    rw [hef, State.district_of_engineOf hf] at he
    cases he

end

/-! ### What return claims under HOLD keep -/

section
variable {s : State} {c d : DistrictId}

/-- A check error leaves its district in CHECK_HOLD, or LOCKED (R22, R24). -/
theorem State.state_checkError (s : State) (d : DistrictId) : ((s.checkError d).dist d).state =
    if (s.dist d).state = .locked then .locked else .checkHold := by
  obtain ⟨-, hlocked, hleft⟩ := checkErrorTaken_checkError s d
  by_cases hl : (s.dist d).state = .locked
  · rw [hlocked hl, State.dist, get_put_same, if_pos hl]
    exact hl
  · rw [(hleft hl).2, State.dist, get_put_same, if_neg hl]

theorem not_moving_checkError (h : d = c ∨ ¬s.Moving d) : ¬(s.checkError c).Moving d := by
  by_cases hd : d = c
  · subst hd
    rw [State.Moving, s.state_checkError]
    split <;> decide
  · rw [State.Moving, (aside_checkError (Ne.symm hd) s).dist]
    exact h.resolve_left hd

theorem not_moving_enterQueued (b : Bool) (h : ¬s.Moving d) : ¬(s.enterQueued c b).Moving d := by
  by_cases hd : d = c
  · subst hd
    simp [State.Moving, s.dist_enterQueued_same]
  · rwa [State.Moving, s.dist_enterQueued_other c d b hd]

theorem not_moving_releaseSuspect (h : ¬s.Moving d) : ¬(s.releaseSuspect c).Moving d := by
  unfold State.releaseSuspect
  split
  · exact not_moving_checkError (.inr h)
  · exact not_moving_enterQueued true h

theorem not_moving_returnEffect (hc : s.Moving c) (h : d = c ∨ ¬s.Moving d) : ¬(s.returnEffect c).Moving d := by
  by_cases hd : d = c
  · subst hd
    simp [State.Moving, (State.returnedContext hc).1.state]
  · rw [State.Moving, (aside_returnEffect (Ne.symm hd) s).dist]
    exact h.resolve_left hd

/-- The district of the claim stops, and none starts to ramp or to flip. -/
theorem not_moving_returnClaim (hs : s.hold = true) (h : d = c ∨ ¬s.Moving d) :
    ¬(State.returnClaim c s).Moving d := by
  refine State.returnClaim_keeps_of_hold (P := fun t => ¬t.Moving d) (fun t n ht => ?_)
    (fun t _ ht _ => not_moving_releaseSuspect ht) hs (fun hc => ?_) (fun _ => not_moving_checkError h)
    (fun hc => not_moving_returnEffect hc h)
  · rwa [State.Moving, (apart_closeSlot d t n).state]
  · exact h.elim (fun hd => hd ▸ hc) id

/-- A district that is not GATED stands apart from the claims of others, and from its own if it does not move. -/
theorem apart_returnClaim_of_hold (hs : s.hold = true) (hg : (s.dist d).state ≠ .gated)
    (h : c ≠ d ∨ ¬s.Moving d) : Apart d s (State.returnClaim c s) := by
  have hne (hc : s.Moving c) : c ≠ d := h.elim id (fun hd hcd => hd (hcd ▸ hc))
  refine State.returnClaim_keeps_of_hold (P := Apart d s) (fun t n ht => ht.trans (apart_closeSlot d t n))
    (fun t e ht he => ?_) hs (fun _ => .refl d s)
    (fun hc => (aside_checkError (hne hc) s).apart (calm_checkError s c))
    (fun hc => (aside_returnEffect (hne hc) s).apart (calm_returnEffect s c))
  have hed : e ≠ d := fun hed => hg (by rw [← ht.state, ← hed, he])
  exact ht.trans ((aside_releaseSuspect hed t).apart (calm_releaseSuspect t e))

/-- An IDLE engine stands through a check error. -/
theorem engine_checkError_of_idle {e : EngineId} (he : (s.engine e).district = .none) :
    (s.checkError c).engine e = s.engine e := by
  obtain ⟨-, hlocked, hleft⟩ := checkErrorTaken_checkError s c
  by_cases hl : (s.dist c).state = .locked
  · rw [hlocked hl]
    rfl
  · exact (hleft hl).1.idle he

theorem engine_returnEffect_of_idle {e : EngineId} (he : (s.engine e).district = .none) (hc : s.Moving c) :
    (s.returnEffect c).engine e = s.engine e := by
  rcases hc with hc | hc
  · obtain ⟨before, after, -, -, -, -, -, hfreed⟩ := State.returnEffect_place_of_ramping hc
    exact hfreed.idle he
  · obtain ⟨before, after, -, heffect⟩ := State.returnEffect_of_reversing hc
    rw [heffect]
    rfl

theorem engine_closeSlot (s : State) (n : SlotId) (e : EngineId) : (s.closeSlot n).engine e = s.engine e := by
  obtain ⟨contexts, ring, slots, hclose, -⟩ := s.closeSlot_eq n
  rw [hclose]
  rfl

theorem engine_releaseSuspect_of_idle {e : EngineId} (he : (s.engine e).district = .none) :
    (s.releaseSuspect c).engine e = s.engine e := by
  unfold State.releaseSuspect
  split
  · exact engine_checkError_of_idle he
  · rfl

theorem engine_notify_of_idle {e : EngineId} (before : State) (he : (s.engine e).district = .none) :
    (before.notify c s).engine e = s.engine e :=
  State.notify_keeps (P := fun t => t.engine e = s.engine e) (fun t n ht => (engine_closeSlot t n e).trans ht)
    (fun t _ ht _ => (engine_releaseSuspect_of_idle (by rw [ht, he])).trans ht) before c s rfl

theorem engine_returnClaim_of_idle {e : EngineId} {x : Engine} (hs : s.hold = true) (hx : x.district = .none)
    (he : s.engine e = x) : (State.returnClaim c s).engine e = x := by
  have hidle : (s.engine e).district = .none := by rw [he, hx]
  exact State.returnClaim_keeps_of_hold (P := fun t => t.engine e = x) (fun t n ht => (engine_closeSlot t n e).trans ht)
    (fun t _ ht _ => (engine_releaseSuspect_of_idle (by rw [ht, hx])).trans ht) hs (fun _ => he)
    (fun _ => (engine_checkError_of_idle hidle).trans he) (fun hc => (engine_returnEffect_of_idle hidle hc).trans he)

end

end Sys2Proof.Machine
end

section
/-! PROOF. O38: HOLD_ASSERT returns what ramps and flips to the queue (R60, R157). -/

namespace Sys2Proof.Machine

open Sys2Proof

/-! ### The claims of a HOLD assert -/

/-- The return claims of the districts that ramp or flip (R157). -/
def State.returnHeld (s : State) : State := s.inFreeOrder s.heldBack State.returnClaim

theorem State.mem_heldBack (s : State) (d : DistrictId) : d ∈ s.heldBack ↔ s.Moving d := by
  simp [State.heldBack, State.Moving, List.mem_filter, indices]

theorem State.heldBack_nodup (s : State) : s.heldBack.Nodup := (List.nodup_finRange 32).filter _

theorem exec_holdAssert_of_released {s : State} (hr : s.inReset = false) (hs : s.hold = false) :
    exec .holdAssert s = .next (State.returnHeld { s with hold := true }) := by
  have hx : exec .holdAssert s = .next (s.running State.assertHold) := rfl
  rw [hx, s.running_of_run _ hr, State.assertHold, if_neg (by rw [hs]; decide)]
  rfl

theorem calm_returnHeld (s : State) : Calm s s.returnHeld := calm_inFreeOrder _ _ (fun d _ t => calm_returnClaim d t) s

/-- An engine found for a district in a state is the one found in a state in which it stands apart. -/
theorem Apart.engineOf {d : DistrictId} {s t : State} (h : Apart d s t) : t.engineOf d = s.engineOf d := by
  refine congrArg (fun P => (indices 4).find? P) (funext fun e => ?_)
  rw [Bool.eq_iff_iff, beq_iff_eq, beq_iff_eq]
  exact ⟨fun he => h.engine e (.inr he) ▸ he, fun he => (congrArg Engine.district (h.engine e (.inl he))).trans he⟩

theorem State.Moving.not_gated {s : State} {d : DistrictId} (h : s.Moving d) : (s.dist d).state ≠ .gated := by
  rcases h with h | h <;> rw [h] <;> decide

theorem State.Moving.apart {s t : State} {d : DistrictId} (h : s.Moving d) (g : Apart d s t) : t.Moving d := by
  rwa [State.Moving, g.state]

theorem Apart.passes {s t : State} {d : DistrictId} (g : Apart d s t) (h : s.passes d) : t.passes d := by
  rw [State.passes, State.checkFails, g.dist]
  exact h

/-- What d was is judged by parts of its context that stand where it stands apart. -/
theorem ReturnedContext.of_apart {s t : State} {d : DistrictId} {y : District} (g : Apart d s t)
    (h : ReturnedContext (t.dist d) y) : ReturnedContext (s.dist d) y := by
  rw [g.dist] at h
  exact { h with }

theorem ReturnedContext.apart {s t : State} {d : DistrictId} {x : District} (g : Apart d s t)
    (h : ReturnedContext x (s.dist d)) : ReturnedContext x (t.dist d) := by
  rw [g.dist]
  exact h.incident _ _

section
variable {s : State} {d : DistrictId} (hs : s.hold = true)
include hs

/-- Where d moves, its claim comes once; the claims before it leave d apart, and those after it are of others. -/
theorem State.returnHeld_split (hd : s.Moving d) : ∃ (u : State) (after : List DistrictId), u.hold = true
    ∧ Apart d s u ∧ s.returnHeld = after.foldl (fun t c => State.returnClaim c t) (State.returnClaim d u) := by
  obtain ⟨n, before, after, hbefore, -, horder⟩ :=
    s.inFreeOrder_split State.returnClaim ((s.mem_heldBack d).mpr hd) s.heldBack_nodup
  refine ⟨_, after, ?_, ?_, horder⟩
  all_goals
    have hpre := foldl_keeps (P := fun t : State => t.hold = true ∧ Apart d s t)
      (fun t c => State.returnClaim c t) before (fun c hc t ⟨ht, ha⟩ => ⟨(calm_returnClaim c t).hold.trans ht,
        ha.trans (apart_returnClaim_of_hold ht (hd.apart ha).not_gated (.inl (hbefore c hc).2))⟩)
      { s with choices := n } ⟨hs, apart_choices d s n⟩
  · exact hpre.1
  · exact hpre.2

/-- No district ramps or flips once the claims are taken. -/
theorem not_moving_returnHeld : ¬s.returnHeld.Moving d := by
  by_cases hd : s.Moving d
  · obtain ⟨u, after, hu, -, horder⟩ := State.returnHeld_split hs hd
    rw [horder]
    exact (State.returnClaims_keep_of_hold (P := fun t => ¬t.Moving d)
      (fun c t ht h => not_moving_returnClaim ht (.inr h)) after ((calm_returnClaim d u).hold.trans hu) (not_moving_returnClaim hu (.inl rfl))).2
  · refine (State.inFreeOrder_keeps (P := fun t => t.hold = true ∧ ¬t.Moving d) s.heldBack State.returnClaim
      (fun _ ht => ht) (fun c _ t ⟨ht, h⟩ => ⟨(calm_returnClaim c t).hold.trans ht, ?_⟩) s ⟨hs, hd⟩).2
    exact not_moving_returnClaim ht (.inr h)

/-- A district that does not move and is not GATED stands apart from all the claims. -/
theorem apart_returnHeld (hd : ¬s.Moving d) (hg : (s.dist d).state ≠ .gated) : Apart d s s.returnHeld := by
  refine (State.inFreeOrder_keeps (P := fun t => t.hold = true ∧ Apart d s t) s.heldBack State.returnClaim
    (fun t ht => ⟨ht.1, ht.2.trans (apart_choices d t _)⟩)
    (fun c _ t ⟨ht, ha⟩ => ⟨(calm_returnClaim c t).hold.trans ht, ha.trans ?_⟩) s ⟨hs, .refl d s⟩).2
  refine apart_returnClaim_of_hold ht (by rwa [ha.state]) (.inr ?_)
  rwa [State.Moving, ha.state]

/-- A district that passes its check is back in the queue by its own claim, which no other undoes. -/
theorem State.returnHeld_returned (hd : s.Moving d) (hp : s.passes d) :
    ReturnedContext (s.dist d) (s.returnHeld.dist d) ∧ d ∈ s.returnHeld.queue := by
  obtain ⟨u, after, hu, hapart, horder⟩ := State.returnHeld_split hs hd
  have hmoving := hd.apart hapart
  have hpasses : u.checkFails d = false := hapart.passes hp
  obtain ⟨hcontext, hqueued⟩ := State.returnedContext hmoving
  have hclaim : Apart d (u.returnEffect d) (State.returnClaim d u) := by
    rw [State.returnClaim_of_hold hu hmoving, if_neg (by rw [hpasses]; decide)]
    exact apart_notify u d (by rw [hcontext.state]; decide)
  have hown : ReturnedContext (s.dist d) ((State.returnClaim d u).dist d) := (hcontext.apart hclaim).of_apart hapart
  have hstill : ¬(State.returnClaim d u).Moving d := not_moving_returnClaim hu (.inl rfl)
  obtain ⟨-, hafter⟩ := State.returnClaims_keep_of_hold (P := fun t => Apart d (State.returnClaim d u) t)
    (fun c t ht ha => ha.trans (apart_returnClaim_of_hold ht (by rw [ha.state, hown.state]; decide)
      (.inr (by rwa [State.Moving, ha.state]))))
    after ((calm_returnClaim d u).hold.trans hu) (.refl d _)
  rw [horder]
  exact ⟨hown.apart hafter, hafter.queue.mpr (hclaim.queue.mpr hqueued)⟩

/-- The engine that a ramping district gives up stays IDLE. -/
theorem State.returnHeld_engine {e : EngineId} (hd : (s.dist d).state = .ramping) (hp : s.passes d)
    (he : s.engineOf d = some e) : (s.returnHeld.engine e).district = .none ∧ (s.returnHeld.engine e).index = 0
      ∧ (s.returnHeld.engine e).stalls = 0 ∧ (s.returnHeld.engine e).timer = .none := by
  obtain ⟨u, after, hu, hapart, horder⟩ := State.returnHeld_split hs (.inl hd)
  have hpasses : u.checkFails d = false := hapart.passes hp
  obtain ⟨-, -, -, -, -, -, -, -, hfreed⟩ := State.returnEffect_place_of_ramping (hapart.state.trans hd)
  obtain ⟨hengine, -⟩ := hfreed e (hapart.engineOf.trans he)
  have hclaim : (State.returnClaim d u).engine e = (u.returnEffect d).engine e := by
    rw [State.returnClaim_of_hold hu (.inl (hapart.state.trans hd)), if_neg (by rw [hpasses]; decide)]
    exact engine_notify_of_idle u (by rw [hengine])
  obtain ⟨-, hafter⟩ := State.returnClaims_keep_of_hold
    (P := fun t => t.engine e = (u.returnEffect d).engine e)
    (fun c t ht h => engine_returnClaim_of_idle ht (by rw [hengine]) h)
    after ((calm_returnClaim d u).hold.trans hu) hclaim
  rw [horder, hafter, hengine]
  exact ⟨rfl, rfl, rfl, rfl⟩

omit hs in
/-- Where d alone moves, the one claim is taken directly. -/
theorem State.returnHeld_of_one (hone : ∀ e, s.Moving e ↔ e = d) (hp : s.passes d) :
    s.returnHeld = s.finish d (s.returnEffect d) := by
  have hlist : s.heldBack = [d] := List.perm_singleton.mp
    ((List.perm_ext_iff_of_nodup s.heldBack_nodup (List.nodup_singleton d)).mpr
      (fun e => by rw [s.mem_heldBack, hone, List.mem_singleton]))
  rw [State.returnHeld, hlist, State.inFreeOrder_one, State.returnClaim, if_pos ((hone d).mpr rfl),
    s.claim_of_passes d _ hp]

end

/-- Settles O38: each district's own claim, and what the other claims leave of it. -/
theorem holdAssertLeavesNoRampOrFlip : Obligations.HoldAssertLeavesNoRampOrFlip := by
  intro s hr hreleased
  have hs : ({ s with hold := true } : State).hold = true := rfl
  have hcalm := calm_returnHeld { s with hold := true }
  refine ⟨_, exec_holdAssert_of_released hr hreleased, hcalm.hold, fun d => not_or.mp (not_moving_returnHeld hs),
    fun d hd => ?_, fun d hd hp => ?_, fun d e hd hp he => State.returnHeld_engine hs hd hp he, fun d hone hp => ?_,
    hcalm.control, hcalm.adjacency, hcalm.nodes, hcalm.lines, hcalm.exchange, hcalm.mem⟩
  · have hapart : Apart d { s with hold := true } (State.returnHeld { s with hold := true }) := by
      have hstate : (State.dist { s with hold := true } d).state = .proving
        ∨ (State.dist { s with hold := true } d).state = .live := hd
      refine apart_returnHeld hs ?_ ?_
      · rcases hstate with h | h <;> simp [State.Moving, h]
      · rcases hstate with h | h <;> rw [h] <;> decide
    rw [hapart.dist]
    exact ⟨rfl, rfl, rfl⟩
  · obtain ⟨h, hqueued⟩ := State.returnHeld_returned (s := { s with hold := true }) hs hd hp
    exact ⟨h.state, hqueued, h.level, h.markRamping, h.markReversing, h.attempts, h.polarity, h.flags, h.words⟩
  · have hfinish := State.returnHeld_of_one (s := { s with hold := true }) hone hp
    rcases (hone d).mpr rfl with hd | hd
    · obtain ⟨before, after, hplace, hqueue, hdist, hothers, hslots, hfreed⟩ :=
        State.returnEffect_place_of_ramping (s := { s with hold := true }) hd
      refine ⟨_, _, before, after, rfl, hfinish, hplace, hqueue, by rw [hdist]; rfl, hothers, hslots, hfreed.stress,
        fun e _ he => ?_, fun hrev => ?_⟩
      · obtain ⟨-, -, hfeed, -⟩ := hfreed.2 e he
        exact congrArg Feed.engaged hfeed
      · rw [hd] at hrev
        cases hrev
    · obtain ⟨before, after, hplace, heffect⟩ := State.returnEffect_of_reversing (s := { s with hold := true }) hd
      have hdist : (State.returnEffect { s with hold := true } d).dist d = _ :=
        (congrArg (fun t : State => t.dist d) heffect).trans (get_put_same s.districts d _)
      refine ⟨_, _, before, after, rfl, hfinish, hplace, by rw [heffect], by rw [hdist], fun e he => ?_,
        by rw [heffect], fun k => by rw [heffect]; rfl, fun e hramp => ?_, fun _ => by rw [heffect]; exact ⟨rfl, rfl⟩⟩
      · rw [heffect]
        exact get_put_other _ _ _ _ he
      · rw [hd] at hramp
        cases hramp

end Sys2Proof.Machine
end

section
/-! SUPPORT. A scan ends where R70 says: each grant leaves one district fewer QUEUED or GATED, so the bound of the loop
is never reached. -/

namespace Sys2Proof.Machine

open Sys2Proof

/-- A district that stands in the queue or may be released into it. -/
abbrev State.Waits (s : State) (d : DistrictId) : Prop := (s.dist d).state = .queued ∨ (s.dist d).state = .gated

/-- The districts that wait. -/
def State.waiting (s : State) : Finset DistrictId := Finset.univ.filter s.Waits

theorem State.card_waiting_le (s : State) : s.waiting.card ≤ 32 := by
  simpa using Finset.card_le_univ s.waiting

/-- The districts that wait in t waited in s, and d is none of them. -/
def WaitWithout (s : State) (d : DistrictId) (t : State) : Prop := ∀ c, t.Waits c → s.Waits c ∧ c ≠ d

theorem WaitWithout.card_lt {s t : State} {d : DistrictId} (h : WaitWithout s d t) (hd : s.Waits d) :
    t.waiting.card < s.waiting.card := by
  refine Finset.card_lt_card (Finset.ssubset_iff_of_subset (fun c hc => ?_) |>.mpr ⟨d, ?_, fun hdt => ?_⟩)
  · simp only [State.waiting, Finset.mem_filter, Finset.mem_univ, true_and] at hc ⊢
    exact (h c hc).1
  · simpa [State.waiting] using hd
  · simp only [State.waiting, Finset.mem_filter, Finset.mem_univ, true_and] at hdt
    exact (h d hdt).2 rfl

theorem not_waits_checkError (s : State) (d : DistrictId) : ¬(s.checkError d).Waits d := by
  rw [State.Waits, s.state_checkError]
  split <;> decide

/-- A release moves a district that waits already. -/
theorem waits_of_waits_releaseSuspect {s : State} {c e : DistrictId} (he : (s.dist e).state = .gated)
    (hc : (s.releaseSuspect e).Waits c) : s.Waits c := by
  by_cases hce : c = e
  · exact hce ▸ .inr he
  · rwa [State.Waits, (aside_releaseSuspect (Ne.symm hce) s).dist] at hc

section
variable {s t : State} {d : DistrictId}

theorem WaitWithout.notify (h : WaitWithout s d t) (before : State) (e : DistrictId) :
    WaitWithout s d (before.notify e t) := by
  refine State.notify_keeps (P := WaitWithout s d) (fun u n hu c hc => hu c ?_)
    (fun u e hu he c hc => hu c (waits_of_waits_releaseSuspect he hc)) before e t h
  rwa [State.Waits, (apart_closeSlot c u n).state] at hc

/-- One district moved to a state that is neither QUEUED nor GATED. -/
theorem WaitWithout.of_others {u : State} (h : ∀ c, c ≠ d → t.Waits c → s.Waits c)
    (hothers : ∀ c, c ≠ d → (u.dist c).state = (t.dist c).state) (hd : ¬u.Waits d) : WaitWithout s d u := by
  intro c hc
  have hcd : c ≠ d := fun hcd => hd (hcd ▸ hc)
  exact ⟨h c hcd (by rwa [State.Waits, ← hothers c hcd]), hcd⟩

theorem State.state_completeRamp (s : State) (e : EngineId) (d : DistrictId) :
    ((s.completeRamp e d).dist d).state = .proving := by
  have hcounted : (s.completeRamp e d).dist d = ((s.enter d .proving).countAttempt d).dist d := rfl
  rw [hcounted, State.countAttempt, State.dist_modDist_same, State.dist_enter_same]
  split <;> rfl

/-- A grant takes its district out of those that wait. -/
theorem waitWithout_grant {e : EngineId} (he : (s.engine e).district = .none) :
    WaitWithout s d (s.grant e d) := by
  have hself (c : DistrictId) (_ : c ≠ d) (hc : s.Waits c) : s.Waits c := hc
  unfold State.grant
  dsimp only
  split
  · refine (WaitWithout.of_others hself (fun c hc => ?_) (not_waits_checkError s d)).notify s d
    rw [(aside_checkError (Ne.symm hc) s).dist]
  · have hbegun : WaitWithout s d (s.notify d (s.beginRamp e d)) := by
      refine (WaitWithout.of_others hself (fun c hc => ?_) ?_).notify s d
      · rw [(aside_beginRamp (Ne.symm hc) s e (by rw [he]; simp)).dist]
      · simp [State.Waits, s.state_beginRamp]
    split
    · refine (WaitWithout.of_others (fun c _ hc => (hbegun c hc).1) (fun c hc => ?_) ?_).notify _ d
      · exact congrArg District.state
          ((State.dist_modDist_other _ d _ c hc).trans (State.dist_enter_other _ d c _ hc))
      · simp [State.Waits, State.state_completeRamp]
    · exact hbegun

end

section
variable {s : State} (h : RestartAgrees s)
include h

theorem RestartAgrees.granted {e : EngineId} {d : DistrictId} (hd : d ∈ s.queue) : Granted s e d (s.grant e d) := by
  have hqueued : (s.dist d).state = .queued := (h.placed d).queued.mp hd
  have hout : s.engineOf d = .none := (s.engineOf_eq_none_iff d).mpr (fun f hf => by
    have hramping := (h.placed d).ramping.mp ⟨f, hf⟩
    rw [hqueued] at hramping
    cases hramping)
  refine granted_grant s e d hqueued hout (fun _ => ?_)
  have hramping := s.state_beginRamp e d
  have hapart : Apart d (s.beginRamp e d) (s.notify d (s.beginRamp e d)) :=
    apart_notify s d (by rw [hramping]; decide)
  have hengine : (s.beginRamp e d).engine e = _ :=
    (congrArg (fun t : State => t.engine e) (grantTaken_beginRamp s e d hqueued)).trans (get_put_same _ _ _)
  rw [hapart.state, hapart.engine e (.inl (by rw [hengine])), hengine]
  exact ⟨hramping, rfl⟩

omit h in
/-- With fuel for each district that waits, the loop goes on until no grant is left. -/
theorem scanEnds_scanLoop : ∀ (fuel : Nat) (s : State), RestartAgrees s → s.waiting.card < fuel →
    ScanEnds s (scanLoop fuel s) := by
  intro fuel
  induction fuel with
  | zero => exact fun _ _ hlt => absurd hlt (Nat.not_lt_zero _)
  | succ fuel ih =>
    intro s h hlt
    unfold scanLoop
    split
    · next e d he hd =>
      have hmem := List.mem_of_find?_eq_some hd
      have hidle : (s.engine e).district = .none := by simpa using List.find?_some he
      have hfewer := (waitWithout_grant (d := d) hidle).card_lt (.inl ((h.placed d).queued.mp hmem))
      exact .grants s _ _ e d (grantsNext_of_scan s e d he hd) (h.granted hmem)
        (ih _ (h.grant hidle hmem) (Nat.lt_of_lt_of_le hfewer (Nat.le_of_lt_succ hlt)))
    · next hnone =>
      refine .ends s ?_
      cases he : s.idleEngine with
      | none => exact .inl (fun e hidle => List.find?_eq_none.mp he e (List.mem_finRange e) (by simp [hidle]))
      | some e =>
        cases hd : s.queue.find? s.admissible with
        | none => exact .inr (fun d hm ha => List.find?_eq_none.mp hd d hm ((s.admissible_iff_Admissible d).mpr ha))
        | some d => exact (hnone e d he hd).elim

theorem RestartAgrees.scanEnds : ScanEnds s s.scan :=
  scanEnds_scanLoop 65 s h (Nat.lt_of_le_of_lt s.card_waiting_le (by decide))

end

end Sys2Proof.Machine
end

section
/-! PROOF. O39: HOLD_RELEASE is an occasion for a scan (R68, R158). -/

namespace Sys2Proof.Machine

open Sys2Proof

theorem exec_holdRelease_of_held {s : State} (hr : s.inReset = false) (hs : s.hold = true) :
    exec .holdRelease s = .next (State.scan { s with hold := false }) := by
  have hx : exec .holdRelease s = .next (s.running State.releaseHold) := rfl
  rw [hx, s.running_of_run _ hr, State.releaseHold, if_pos hs]

/-- The newest entry of an energise history is the district granted last (R100). -/
theorem getLast?_appendHistory (l : List DistrictId) (d : DistrictId) : (appendHistory l d).getLast? = some d := by
  unfold appendHistory
  split <;> simp

section
variable {s : State} {e : EngineId} {d : DistrictId}

/-- The start of a ramp of two or more steps, whichever state d is in: its context, the engine, the feed and the
queue. -/
theorem State.beginRamp_of_steps (hsteps : 2 ≤ (s.dist d).steps) : s.beginRamp e d = { s with
    queue := s.queue.erase d
    engines := put s.engines e
      { district := some d
        feed := (s.dist d).feed
        steps := (s.dist d).steps
        interval := (s.dist d).interval
        ceiling := (s.dist d).ceiling
        index := 1
        stalls := 0
        timer := some ((s.dist d).interval * 1000)
        reading := .none }
    districts := put s.districts d { (s.dist d).enter s.control .ramping with
      level := 16 * 1 / (s.dist d).steps
      polled := false }
    feeds := put s.feeds (s.dist d).feed { s.feed (s.dist d).feed with
      engaged := (s.feed (s.dist d).feed).engaged + 1
      stress := (s.feed (s.dist d).feed).stress + (s.dist d).weight
      history := appendHistory (s.feed (s.dist d).feed).history d } } := by
  rw [State.beginRamp, if_neg (Nat.not_le.mpr hsteps), State.takeEngine, State.commandStep]
  simp only [State.modEngine, State.modFeed, State.enter, State.modDist, State.engine, State.dist, put_put,
    get_put_same]
  rfl

/-- The one entry of the queue, admissible, in no incident and passing its check, takes the lowest IDLE engine, and
the scan is over. -/
theorem State.scan_of_one (hq : s.queue = [d]) (ha : s.admissible d = true) (he : s.idleEngine = some e)
    (hp : s.passes d) (hn : (s.dist d).incidentSlot = .none) (hsteps : 2 ≤ (s.dist d).steps) :
    s.scan = s.beginRamp e d := by
  have hbegun := s.beginRamp_of_steps (e := e) hsteps
  have hno : ((s.beginRamp e d).dist d).incidentSlot = .none := by
    rw [hbegun, State.dist, get_put_same]
    exact hn
  have hgrant : s.grant e d = s.beginRamp e d := by
    rw [State.grant, if_neg (by rw [show s.checkFails d = false from hp]; decide), if_neg (Nat.not_le.mpr hsteps),
      State.notify_of_no_incident s d _ hno]
  have hempty : (s.beginRamp e d).queue = [] := by
    rw [s.queue_beginRamp, hq, List.erase_cons_head]
  have hfind : s.queue.find? s.admissible = some d := by rw [hq, List.find?_cons_of_pos ha]
  unfold State.scan scanLoop
  rw [he, hfind]
  dsimp only
  rw [hgrant]
  exact State.scan_ends _ 63 (.inr (by rw [hempty]; rfl))

/-- The lowest-numbered IDLE engine is the one the scan offers. -/
theorem State.idleEngine_of_lowest (he : (s.engine e).district = .none)
    (hlow : ∀ f : EngineId, f < e → (s.engine f).district ≠ .none) : s.idleEngine = some e := by
  refine List.find?_eq_some_iff_getElem.mpr ⟨by simp [he], e.val, by simp [indices], by simp [indices], fun j hj => ?_⟩
  have hbusy := hlow ⟨j, hj.trans e.isLt⟩ hj
  simpa [indices, Option.isSome_iff_ne_none] using hbusy

/-- What the start of such a ramp leaves of each table. -/
theorem State.beginRamp_tables (hsteps : 2 ≤ (s.dist d).steps) :
    (s.beginRamp e d).dist d = { (s.dist d).enter s.control .ramping with
        level := 16 * 1 / (s.dist d).steps
        polled := false }
      ∧ (s.beginRamp e d).engine e =
        { district := some d
          feed := (s.dist d).feed
          steps := (s.dist d).steps
          interval := (s.dist d).interval
          ceiling := (s.dist d).ceiling
          index := 1
          stalls := 0
          timer := some ((s.dist d).interval * 1000)
          reading := .none }
      ∧ (s.beginRamp e d).feed (s.dist d).feed = { s.feed (s.dist d).feed with
          engaged := (s.feed (s.dist d).feed).engaged + 1
          stress := (s.feed (s.dist d).feed).stress + (s.dist d).weight
          history := appendHistory (s.feed (s.dist d).feed).history d }
      ∧ (∀ c, c ≠ d → (s.beginRamp e d).dist c = s.dist c)
      ∧ (∀ f, f ≠ e → (s.beginRamp e d).engine f = s.engine f)
      ∧ (∀ k, k ≠ (s.dist d).feed → (s.beginRamp e d).feed k = s.feed k)
      ∧ (s.beginRamp e d).slots = s.slots ∧ (s.beginRamp e d).mem = s.mem ∧ (s.beginRamp e d).hold = s.hold := by
  rw [State.beginRamp_of_steps hsteps]
  exact ⟨get_put_same _ _ _, get_put_same _ _ _, get_put_same _ _ _, fun c hc => get_put_other _ _ _ _ hc,
    fun f hf => get_put_other _ _ _ _ hf, fun k hk => get_put_other _ _ _ _ hk, rfl, rfl, rfl⟩

end

/-- Settles O39: no grant, one grant, and the scan in full. -/
theorem holdReleaseIsOccasionForScan : Obligations.HoldReleaseIsOccasionForScan := by
  intro s hr hs
  have hexec := exec_holdRelease_of_held hr hs
  refine ⟨fun hnone => ?_, fun d e hq hn hp hup hcount hstress hsteps he hlow => ?_, fun h => ?_⟩
  · rw [hexec, State.scan_of_none _ (List.find?_eq_none.mpr fun d hd => by rw [hnone d hd]; decide)]
  · have hscan : State.scan { s with hold := false } = State.beginRamp { s with hold := false } e d :=
      State.scan_of_one hq ((State.admissible_iff _ d).mpr ⟨rfl, hup, hcount, hstress⟩)
        (State.idleEngine_of_lowest he hlow) hp hn hsteps
    obtain ⟨hdist, hengine, hfeed, hdists, hengines, hfeeds, hslots, hmem, hhold⟩ :=
      State.beginRamp_tables (s := { s with hold := false }) (e := e) hsteps
    rw [hscan] at hexec
    refine ⟨_, hexec, hhold, ?_, by rw [hdist]; rfl, by rw [hdist]; rfl, by rw [hdist]; rfl, by rw [hengine],
      by rw [hengine]; rfl, by rw [hengine]; rfl, by rw [hengine]; rfl, by rw [hengine]; rfl, by rw [hengine],
      by rw [hengine], by rw [hengine], by rw [hengine]; rfl, hengines, congrArg Feed.stress hfeed,
      congrArg Feed.engaged hfeed, ?_, hfeeds, hdists, hslots, hmem⟩
    · rw [State.queue_beginRamp]
      exact hq ▸ List.erase_cons_head ..
    · exact (congrArg (fun x : Feed => x.history.getLast?) hfeed).trans (getLast?_appendHistory _ d)
  · exact ⟨_, hexec, RestartAgrees.scanEnds (h.of_eq rfl rfl rfl)⟩

end Sys2Proof.Machine
end

section
/-! PROOF. O36: the incident ring's word that starts, and the words of a record (R163, R164, R176). -/

namespace Sys2Proof.Machine

open Sys2Proof

/-! ### Digits of a number -/

/-- A sum of places is the number with those digits. -/
theorem ofDigits_map_range (b n : Nat) (f : Nat → Nat) :
    Nat.ofDigits b ((List.range n).map f) = ((List.range n).map (fun k => f k * b ^ k)).sum := by
  induction n with
  | zero => rfl
  | succ n ih => simp [List.range_succ, Nat.ofDigits_append, ih, Nat.mul_comm]

/-- A digit is read at its place. -/
theorem ofDigits_div_pow_mod {b k : Nat} {l : List Nat} (hb : 0 < b) (hl : ∀ x ∈ l, x < b) (hk : k < l.length) :
    Nat.ofDigits b l / b ^ k % b = l[k] := by
  rw [Nat.ofDigits_div_pow_eq_ofDigits_drop k hb l hl, List.drop_eq_getElem_cons hk, Nat.ofDigits_cons,
    Nat.add_mul_mod_self_left, Nat.mod_eq_of_lt (hl _ (List.getElem_mem hk))]

/-! ### The words of a record (R163, R176) -/

theorem Record.field_word_zero (x : Record) : field (x.word 0) 0 8 = x.id.toNat
    ∧ field (x.word 0) 8 5 = x.origin.val ∧ field (x.word 0) 13 3 = x.cls.code := by
  have hid := x.id.isLt
  have horigin := x.origin.isLt
  have hclass : x.cls.code < 8 := by cases x.cls <;> decide
  refine ⟨?_, ?_, ?_⟩
  all_goals simp only [Record.word, field_ofNat_eq, place]; omega

theorem Record.word_one (x : Record) : x.word 1 = BitVec.ofNat 16 (x.duration % 65536) :=
  congrArg (BitVec.ofNat 16) (Nat.mul_one _)

theorem Record.field_word_two (x : Record) : field (x.word 2) 0 8 = x.missed % 256
    ∧ field (x.word 2) 8 5 = (x.count - 1) % 32 ∧ field (x.word 2) 13 1 = ofMark x.anySaturated
    ∧ field (x.word 2) 14 1 = ofMark x.solitaryLoss ∧ field (x.word 2) 15 1 = ofMark x.layoutReset := by
  have hsaturated := ofMark_le_one x.anySaturated
  have hloss := ofMark_le_one x.solitaryLoss
  have hreset := ofMark_le_one x.layoutReset
  refine ⟨?_, ?_, ?_, ?_, ?_⟩
  all_goals simp only [Record.word, field_ofNat_eq, place]; omega

/-- The status code by the three sets (R176). -/
theorem Record.status_eq (x : Record) (d : Nat) : x.status d =
    if x.members.getLsbD d = false then 0
    else if x.restored.getLsbD d = false then (if x.lockouts.getLsbD d = false then 1 else 3)
    else if x.lockouts.getLsbD d = false then 2 else 4 := by
  rw [Record.status]
  cases x.members.getLsbD d <;> cases x.restored.getLsbD d <;> cases x.lockouts.getLsbD d <;> rfl

/-- The code of district 2k plus 5 times that of district 2k + 1 (R176). -/
def Record.pairCode (x : Record) (k : Nat) : Nat := x.status (2 * k) + 5 * x.status (2 * k + 1)

theorem Record.pairCode_lt (x : Record) (k : Nat) : x.pairCode k < 32 := by
  have hstatus (d : Nat) : x.status d ≤ 4 := by
    rw [x.status_eq]
    split_ifs <;> decide
  have hlow := hstatus (2 * k)
  have hhigh := hstatus (2 * k + 1)
  rw [Record.pairCode]
  omega

/-- The status string is the number whose digits to base 32 are the codes of the sixteen pairs. -/
theorem Record.statusString_eq (x : Record) :
    x.statusString = Nat.ofDigits 32 ((List.range 16).map x.pairCode) := by
  have hplace (k : Nat) : 2 ^ (5 * k) = 32 ^ k := Nat.pow_mul 2 5 k
  rw [ofDigits_map_range, Record.statusString]
  simp only [hplace]
  rfl

theorem Record.forall_pairCodes_lt (x : Record) : ∀ c ∈ (List.range 16).map x.pairCode, c < 32 := by
  simp [x.pairCode_lt]

/-- Bits 5k to 5k + 4 of the status string hold the codes of pair k. -/
theorem Record.statusString_pair (x : Record) (k : Fin 16) :
    x.statusString / 2 ^ (5 * k.val) % 32 = x.pairCode k.val := by
  rw [x.statusString_eq, Nat.pow_mul, show 2 ^ 5 = 32 from rfl,
    ofDigits_div_pow_mod (by decide) x.forall_pairCodes_lt (by simp)]
  simp

/-- Words 3 to 7 hold the 80 bits of the status string, the lowest first. -/
theorem Record.statusString_words (x : Record) :
    (x.word 3).toNat + 2 ^ 16 * (x.word 4).toNat + 2 ^ 32 * (x.word 5).toNat + 2 ^ 48 * (x.word 6).toNat
      + 2 ^ 64 * (x.word 7).toNat = x.statusString := by
  have hlt : x.statusString < 32 ^ 16 := by
    rw [x.statusString_eq]
    simpa using Nat.ofDigits_lt_base_pow_length (by decide) x.forall_pairCodes_lt
  simp only [Record.word, BitVec.toNat_ofNat]
  omega

/-! ### The word that starts (R128, R164) -/

section
variable {s : State} {x : Record} {rest : List Record}

/-- A record in progress goes on with its next word. -/
theorem State.startRing_of_progress {i : Nat} (hi : s.face = .idle) (hc : s.corrections = [])
    (hx : s.ring.records = x :: rest) (hp : s.ring.progress = some i) :
    s.startRing = { s with face := .ring (s.ringAddress i) (x.word i) } := by
  simp only [State.startRing, hi, hc, hx, hp]

/-- With no record in progress the head record begins, unless the ring is full. -/
theorem State.startRing_of_head (hi : s.face = .idle) (hc : s.corrections = [])
    (hx : s.ring.records = x :: rest) (hp : s.ring.progress = .none) :
    s.startRing = if s.ringFull then s
      else { s.modRing (fun r => r.beginRecord x rest) with face := .ring (s.ringAddress 0) (x.word 0) } := by
  simp only [State.startRing, hi, hc, hx, hp]

theorem State.ringFull_iff :
    s.ringFull = true ↔ (s.ring.producer + 1) % s.control.capacity = s.control.consumer := beq_iff_eq

end

/-- Settles O36: the start by the progress of the record, then the record word by word. -/
theorem ringWordStartBeginsOrContinuesRecord : Obligations.RingWordStartBeginsOrContinuesRecord := by
  rintro s x rest ⟨hr, hi⟩ hc hx
  have hstart : exec .ringWordStart s = .next s.startRing := congrArg Host.Outcome.next (s.running_of_run _ hr)
  obtain ⟨hid, horigin, hclass⟩ := x.field_word_zero
  obtain ⟨hmissed, hcount, hsaturated, hloss, hreset⟩ := x.field_word_two
  refine ⟨fun i hp => ?_, fun hp hroom => ?_, fun hp hfull => ?_, hid, horigin, hclass.trans ?_, x.word_one, hmissed,
    hcount, ?_, ?_, ?_, fun code hcode k => ?_⟩
  · rw [hstart, State.startRing_of_progress hi hc hx hp]
    rfl
  · rw [hstart, State.startRing_of_head hi hc hx hp, if_neg (fun hf => hroom (State.ringFull_iff.mp hf))]
    rfl
  · rw [hstart, State.startRing_of_head hi hc hx hp, if_pos (State.ringFull_iff.mpr hfull)]
  · cases x.cls <;> rfl
  · rw [getLsbD_eq_field, hsaturated, decide_ofMark]
  · rw [getLsbD_eq_field, hloss, decide_ofMark]
  · rw [getLsbD_eq_field, hreset, decide_ofMark]
  · have hstatus (d : Nat) : code d = x.status d := (hcode d).trans (x.status_eq d).symm
    rw [x.statusString_words, x.statusString_pair, Record.pairCode, hstatus, hstatus]

end Sys2Proof.Machine
end

section
/-! PROOF. O37: the incident ring's word that completes (R128, R162, R165). -/

namespace Sys2Proof.Machine

open Sys2Proof

/-! ### What the Ring Writer does at a word's end (R162, R165) -/

section
variable {s : State}

/-- An own word that completes leaves the face IDLE where no access waits (R128). -/
theorem State.releaseFace_of_free (h : ∀ r, s.access ≠ .waiting r) : s.releaseFace = { s with face := .idle } := by
  unfold State.releaseFace
  split
  · next r hr => exact absurd hr (h r)
  all_goals rfl

/-- A WAITING access is placed on the face the own word leaves (R128). -/
theorem State.releaseFace_of_waiting {r : Request} (h : s.access = .waiting r) :
    s.releaseFace = ({ s with face := .idle } : State).placeAccess r := by
  simp only [State.releaseFace, h]

theorem State.acceptRecord_of_none (h : s.ring.closing = []) : s.acceptRecord = s := by
  rw [State.acceptRecord, h, ite_self]

/-- An acceptance changes the pending records and the list of waiting slots alone of the Ring Writer (R162). -/
theorem State.ring_acceptRecord (s : State) : ∃ records closing,
    s.acceptRecord.ring = { s.ring with records := records, closing := closing } := by
  unfold State.acceptRecord
  split
  · split <;> exact ⟨_, _, rfl⟩
  · exact ⟨_, _, rfl⟩

/-- The Ring Writer past its head record, before a waiting slot's record is accepted (R165). -/
def State.pastHead (s : State) : State :=
  s.modRing (fun r => { r with
    producer := (r.producer + 1) % s.control.capacity
    records := r.records.drop 1
    progress := .none })

theorem State.advanceProducer_eq (s : State) : s.advanceProducer = s.pastHead.acceptRecord := rfl

theorem State.ring_advanceProducer (s : State) :
    s.advanceProducer.ring.producer = (s.ring.producer + 1) % s.control.capacity
      ∧ s.advanceProducer.ring.progress = .none ∧ s.advanceProducer.ring.missed = s.ring.missed := by
  obtain ⟨records, closing, hring⟩ := s.pastHead.ring_acceptRecord
  rw [s.advanceProducer_eq, hring]
  exact ⟨rfl, rfl, rfl⟩

theorem State.advanceProducer_of_none (hc : s.ring.closing = []) : s.advanceProducer = s.pastHead :=
  State.acceptRecord_of_none hc

/-- With room, the first waiting slot's record follows the others and the slot is FREE (R162). -/
theorem State.advanceProducer_of_first {n : SlotId} {rest : List SlotId} (hc : s.ring.closing = n :: rest)
    (hroom : (s.ring.records.drop 1).length < 4) : s.advanceProducer =
      (s.pastHead.modRing (fun r => { r with records := r.records ++ [(s.slot n).record], closing := rest })).modSlot n
        (fun _ => Slot.blank) :=
  s.pastHead.acceptRecord_of_first hroom hc

theorem State.ringProgress_of_lt {i : Nat} (hp : s.ring.progress = some i) (hi : i < 7) :
    s.ringProgress = s.modRing (fun r => { r with progress := some (i + 1) }) := by
  simp only [State.ringProgress, hp, if_pos hi]

theorem State.ringProgress_of_last (hp : s.ring.progress = some 7) : s.ringProgress = s.advanceProducer := by
  simp [State.ringProgress, hp]

theorem State.ringProgress_eq (s : State) : ∃ ring slots, s.ringProgress = { s with ring := ring, slots := slots } := by
  unfold State.ringProgress
  split
  · split
    · exact ⟨_, _, rfl⟩
    · obtain ⟨ring, slots, haccept⟩ := s.pastHead.acceptRecord_eq
      exact ⟨ring, slots, haccept⟩
  · exact ⟨_, _, rfl⟩

/-! ### The word written, and the face released (R126, R128) -/

/-- The word v written at a and counted: what the part does before a waiting access takes the face. -/
def State.ringWritten (s : State) (a : WordAddr) (v : Word) : State :=
  { (s.writeMem a .both v).ringProgress with face := .idle }

theorem State.ringWritten_eq (s : State) (a : WordAddr) (v : Word) : s.ringWritten a v = { s with
    face := .idle
    mem := Memory.write s.mem a .both v
    ring := (s.ringWritten a v).ring
    slots := (s.ringWritten a v).slots } := by
  obtain ⟨ring, slots, hprogress⟩ := (s.writeMem a .both v).ringProgress_eq
  rw [State.ringWritten, hprogress]
  rfl

/-- A word that completes frees the face, which a WAITING access takes at once (R128). -/
theorem State.completeRing_cases {a : WordAddr} {v : Word} (hf : s.face = .ring a v) :
    ((∀ r, s.access ≠ .waiting r) → s.completeRing = s.ringWritten a v)
      ∧ ∀ r, s.access = .waiting r → s.completeRing = (s.ringWritten a v).placeAccess r := by
  have hcomplete : s.completeRing = (s.writeMem a .both v).ringProgress.releaseFace := by
    simp only [State.completeRing, hf]
  have haccess : (s.writeMem a .both v).ringProgress.access = s.access := by
    obtain ⟨ring, slots, hprogress⟩ := (s.writeMem a .both v).ringProgress_eq
    rw [hprogress]
    rfl
  rw [hcomplete]
  exact ⟨fun hw => State.releaseFace_of_free (by rwa [haccess]),
    fun r hw => State.releaseFace_of_waiting (haccess.trans hw)⟩

/-- What a host access looks at beside the memory stands as the word completes. -/
theorem State.ringWritten_stands (s : State) (a : WordAddr) (v : Word) :
    (s.ringWritten a v).windowBase = s.windowBase
      ∧ (∀ q, (s.ringWritten a v).marked q = s.marked q) ∧ (∀ q, (s.ringWritten a v).ofInvalid q = s.ofInvalid q)
      ∧ (∀ q, (s.ringWritten a v).copy q = s.copy q)
      ∧ ∀ d, (s.ringWritten a v).passes d ↔ s.passes d := by
  rw [s.ringWritten_eq a v]
  exact ⟨rfl, fun _ => rfl, fun q => by cases q <;> rfl, fun q => by cases q <;> rfl, fun _ => Iff.rfl⟩

end

/-- Settles O37: the word by its place in the record, then by the access that waits. -/
theorem ringWordCompleteAdvancesProducerAtWordSeven : Obligations.RingWordCompleteAdvancesProducerAtWordSeven := by
  intro s a v i hr hf hp _
  have hcomplete : exec .ringWordComplete s = .next s.completeRing := congrArg Host.Outcome.next (s.running_of_run _ hr)
  obtain ⟨hfree, hwaits⟩ := State.completeRing_cases hf
  refine ⟨s.ringWritten a v, s.ringWritten_eq a v, fun hlt => ?_, ?_, fun hw => by rw [hcomplete, hfree hw],
    fun r hw => ⟨_, by rw [hcomplete, hwaits r hw], ?_⟩⟩
  · rw [State.ringWritten, State.ringProgress_of_lt (s := s.writeMem a .both v) hp hlt]
    exact ⟨rfl, rfl⟩
  · rintro rfl
    have hlast := State.ringProgress_of_last (s := s.writeMem a .both v) hp
    have hring : (s.ringWritten a v).ring = (s.writeMem a .both v).advanceProducer.ring := by
      rw [State.ringWritten, hlast]
    have hslots : (s.ringWritten a v).slots = (s.writeMem a .both v).advanceProducer.slots := by
      rw [State.ringWritten, hlast]
    obtain ⟨hproducer, hprogress, hmissed⟩ := (s.writeMem a .both v).ring_advanceProducer
    rw [hring, hslots]
    refine ⟨hproducer, hprogress, hmissed, fun hc => ?_, fun n rest hc hroom => ?_⟩
    · rw [State.advanceProducer_of_none (s := s.writeMem a .both v) hc]
      exact ⟨rfl, rfl⟩
    · have hfirst := State.advanceProducer_of_first (s := s.writeMem a .both v) hc hroom
      have hslot (m : SlotId) : (s.ringWritten a v).slot m = if m = n then Slot.blank else s.slot m := by
        rw [State.slot, hslots, hfirst]
        exact State.slot_modSlot _ _ _ _
      rw [hfirst, hslot n, if_pos rfl]
      exact ⟨rfl, rfl, rfl, rfl, fun m hm => by rw [hslot m, if_neg hm]⟩
  · have hidle : (s.ringWritten a v).face = .idle := rfl
    obtain ⟨hbase, hmarked, hinvalid, hcopy, hpasses⟩ := s.ringWritten_stands a v
    simp only [← hbase, ← hmarked, ← hinvalid, ← hcopy, ← hpasses]
    refine ⟨fun ht hop => ?_, fun x ht hop => ?_, fun q x ht hop => ?_, fun q ht hop =>
      ⟨fun hm hv hok => ?_, fun hm => ?_, fun d hd hm hfail => ?_⟩, fun _ => State.waitAsserted_placeAccess hidle⟩
    · rw [State.placeAccess_owner ht, State.seekFace_read hidle hop]
    · rw [State.placeAccess_owner ht, State.seekFace_write_owner hidle hop ht]
    · rw [State.placeAccess_write ht hop, State.seekFace_write_intent hidle hop ht]
    · exact State.placeAccess_read_copy ht hop hm hv hok
    · rw [State.placeAccess_read_memory ht hop hm, State.seekFace_read hidle hop]
    · rw [State.placeAccess_read_fails ht hop hd hm hfail, State.seekFace_raiseCheck_read d hidle hop]

end Sys2Proof.Machine
end

section
/-! PROOF. O1: a step with a command at the front of the queue (log 1). -/

namespace Sys2Proof.Machine

open Sys2Proof

/-- Settles O1: the queue's shape chooses the branch of `step`; the other branch is `step_of_no_command`. -/
theorem stepRunsFrontCommand : Obligations.StepRunsFrontCommand := by
  intro s c rest hpending
  rw [step, hpending]

end Sys2Proof.Machine
end
